-- ==== Sys2Proof/Word.lean ====
section
/-! DEFINITION. The widths of the block's values: byte, 32-bit word, 40-bit command word. -/

namespace Sys2Proof

/-- A byte: 8 bits, unsigned (00_scope.md R6). -/
abbrev Byte := BitVec 8

/-- A 32-bit register, operand or port value; `v.getLsbD i` is R7's `v[i]`. -/
abbrev Word := BitVec 32

/-- A command word: 40 bits, one format and one length (30_encoding.md R42). -/
abbrev Cmd := BitVec 40

end Sys2Proof
end

