-- ==== Sys2Proof/AsmSyntax.lean ====
section
/-! DEFINITION. The assembly language as syntax: literals, statements and pseudo-instructions
(30_encoding.md R50, R51, R52). -/

namespace Sys2Proof

/-- A literal as written: a number of any size, a character in single quotes, a string in double
quotes (30_encoding.md R51). Characters are their ASCII codes (00_scope.md R10). -/
inductive AsmLiteral where
  | number (n : Nat)
  | char (b : Byte)
  | string (bs : List Byte)
deriving DecidableEq, Repr

/-- One assembly statement, before its operands are checked (30_encoding.md R50, R52). -/
inductive AsmStmt where
  | nop
  | crcInit
  | crcByte (b : AsmLiteral)
  | crcWord (w : AsmLiteral)
  | typeLoad (w : AsmLiteral)
  /-- `.cmd <c>`: the word `c` as given, legal or not. -/
  | cmd (c : Nat)
  /-- `crc.bytes "<s>"` (R52). -/
  | crcBytes (s : List Byte)
  /-- `crc.chunk "<t>", "<p>"` (R52). -/
  | crcChunk (t p : List Byte)
  /-- `type.check "<t>"` (R52). -/
  | typeCheck (t : List Byte)
deriving DecidableEq, Repr

end Sys2Proof
end

