-- ==== Sys2Proof/Syntax.lean ====
section
/-! DEFINITION. The block's commands as syntax: one constructor per row of spec/opcode_table.json. -/

namespace Sys2Proof

/-- A legal command (30_encoding.md R45). Operands carry their widths, so no constructor can hold a
reserved bit: a word with one set decodes to no `Instr` at all (R47). -/
inductive Instr where
  /-- NOP: do nothing (42_control.md R76). -/
  | nop
  /-- CRC.INIT: start a new CRC (41_crc.md R69). -/
  | crcInit
  /-- CRC.BYTE: accumulate the byte `D8` (41_crc.md R70). -/
  | crcByte (d8 : Byte)
  /-- CRC.WORD: accumulate the four bytes of `W` in stream order (41_crc.md R71). -/
  | crcWord (w : Word)
  /-- TYPE.LOAD: load the type code `W` (40_typecode.md R54). -/
  | typeLoad (w : Word)
deriving DecidableEq, Repr

end Sys2Proof
end

