-- ==== Sys2Proof/WellFormed.lean ====
section
/-! DEFINITION. Well-formedness: what a command must satisfy beyond its type (nothing: the widths say
it all), and what an assembly statement must satisfy to be no assembly error (30_encoding.md R50, R51,
R52). -/

namespace Sys2Proof

/-- Every command is well formed: `D8` ranges over every byte and `W` over every word, "including bytes
outside the alphabetic range" (30_encoding.md R47), and reserved bits have no place in `Instr` (log 14). -/
def Instr.wellFormed : Instr → Bool
  | .nop => true
  | .crcInit => true
  | .crcByte _ => true
  | .crcWord _ => true
  | .typeLoad _ => true

/-- The literal may stand as a byte operand: a number 0..255 or a quoted character (R50, R51). -/
def AsmLiteral.fitsByte : AsmLiteral → Bool
  | .number n => n < 256
  | .char _ => true
  | .string _ => false

/-- The literal may stand as a word operand: a number below 2^32 or a string of exactly four bytes
(R50, R51; that a quoted character may not: log 12). -/
def AsmLiteral.fitsWord : AsmLiteral → Bool
  | .number n => n < 4294967296
  | .char _ => false
  | .string bs => bs.length == 4

/-- The statement is no assembly error: "An operand literal out of range is an assembly error, never
truncated" (R50); type strings have exactly four bytes (R51, R52). -/
def AsmStmt.wellFormed : AsmStmt → Bool
  | .nop => true
  | .crcInit => true
  | .crcByte b => b.fitsByte
  | .crcWord w => w.fitsWord
  | .typeLoad w => w.fitsWord
  | .cmd c => c < 1099511627776
  | .crcBytes _ => true
  | .crcChunk t _ => t.length == 4
  | .typeCheck t => t.length == 4

end Sys2Proof
end

