-- ==== Sys2Proof/Decode.lean ====
section
/-! DEFINITION. The command word: its fields, the decoder (total on all 2^40 words, rejecting by cause),
the encoder, and the opcode map as match and mask (30_encoding.md R42 to R49). -/

namespace Sys2Proof

/-- Why a word selects no command: the two causes of IllegalCommand (60_exceptions.md R80). -/
inductive IllegalCause where
  /-- Cause 1: `OP` is none of 0x00..0x04 (R81). -/
  | unassignedOpcode
  /-- Cause 2: a reserved operand bit is set (R82). -/
  | reservedBits
deriving DecidableEq, Repr

/-- The cause code captured in `ERR_CAUSE` (60_exceptions.md R80). -/
def IllegalCause.code : IllegalCause → BitVec 2
  | .unassignedOpcode => 1#2
  | .reservedBits => 2#2

/-- The decoder's result: "either one command or an illegal command with its cause" (30_encoding.md
R46). -/
inductive DecodeResult where
  | legal (i : Instr)
  | illegal (cause : IllegalCause)
deriving DecidableEq, Repr

/-! ## Fields of the command word (30_encoding.md R43) -/

/-- `OP`, bits 39:32. -/
def opField (c : Cmd) : Byte := c.extractLsb' 32 8

/-- `W`, bits 31:0. -/
def operandField (c : Cmd) : Word := c.extractLsb' 0 32

/-- `D8`, bits 7:0: the data byte of CRC.BYTE. -/
def d8Field (c : Cmd) : Byte := c.extractLsb' 0 8

/-- `RSV24`, bits 31:8: the reserved bits of CRC.BYTE. -/
def rsv24Field (c : Cmd) : BitVec 24 := c.extractLsb' 8 24

/-- `B0`, bits 31:24: the first byte in stream order. -/
def b0Field (c : Cmd) : Byte := c.extractLsb' 24 8

/-- `B1`, bits 23:16. -/
def b1Field (c : Cmd) : Byte := c.extractLsb' 16 8

/-- `B2`, bits 15:8. -/
def b2Field (c : Cmd) : Byte := c.extractLsb' 8 8

/-- `B3`, bits 7:0: the last byte in stream order. -/
def b3Field (c : Cmd) : Byte := c.extractLsb' 0 8

/-! ## Decoder and encoder -/

/-- The decoder of 30_encoding.md R46. The opcode is examined before the operand, so an unassigned
opcode is cause 1 whatever the operand (60_exceptions.md R83); reserved bits are checked, never ignored
(R47). -/
def decode (c : Cmd) : DecodeResult :=
  if opField c = 0x00#8 then
    if operandField c = 0#32 then .legal .nop else .illegal .reservedBits
  else if opField c = 0x01#8 then
    if operandField c = 0#32 then .legal .crcInit else .illegal .reservedBits
  else if opField c = 0x02#8 then
    if rsv24Field c = 0#24 then .legal (.crcByte (d8Field c)) else .illegal .reservedBits
  else if opField c = 0x03#8 then .legal (.crcWord (operandField c))
  else if opField c = 0x04#8 then .legal (.typeLoad (operandField c))
  else .illegal .unassignedOpcode

/-- The word of the two fields (30_encoding.md R43). -/
def command (op : Byte) (w : Word) : Cmd := op ++ w

/-- The command word of an instruction (30_encoding.md R45, R50): reserved bits 0. -/
def encode : Instr → Cmd
  | .nop => command 0x00#8 0#32
  | .crcInit => command 0x01#8 0#32
  | .crcByte d8 => command 0x02#8 (d8.setWidth 32)
  | .crcWord w => command 0x03#8 w
  | .typeLoad w => command 0x04#8 w

/-! ## The opcode map as match and mask (30_encoding.md R45) -/

/-- A row of the opcode map: a word belongs to it if its bits under the mask are the match. -/
structure OpcodeRow where
  mnemonic : String
  matchBits : Cmd
  maskBits : Cmd
deriving DecidableEq, Repr

/-- The five rows, in the order of R45 and spec/opcode_table.json. -/
def opcodeTable : List OpcodeRow := [
  OpcodeRow.mk "nop" 0x0000000000#40 0xFFFFFFFFFF#40,
  OpcodeRow.mk "crc.init" 0x0100000000#40 0xFFFFFFFFFF#40,
  OpcodeRow.mk "crc.byte" 0x0200000000#40 0xFFFFFFFF00#40,
  OpcodeRow.mk "crc.word" 0x0300000000#40 0xFF00000000#40,
  OpcodeRow.mk "type.load" 0x0400000000#40 0xFF00000000#40]

/-- Whether the word lies in the row. -/
def OpcodeRow.admits (r : OpcodeRow) (c : Cmd) : Bool := c &&& r.maskBits == r.matchBits

/-- The mnemonic of an instruction, as the opcode table spells it. -/
def Instr.mnemonic : Instr → String
  | .nop => "nop"
  | .crcInit => "crc.init"
  | .crcByte _ => "crc.byte"
  | .crcWord _ => "crc.word"
  | .typeLoad _ => "type.load"

/-! ## The host's table words -/

/-- A table word of `nbits` bits as a command word: its bits above `nbits` are 0. The block has one word
per command, so bit 0 of the table's numbering is bit 0 of the command word (log 4). -/
def tableCommand (nbits w : Nat) : Cmd := BitVec.ofNat 40 (w % 2 ^ nbits)

/-- The instruction the decoder reads from a table word; none where it refuses, and none for a word
longer than a command. -/
def decodeTableWord (nbits w : Nat) : Option Instr :=
  if nbits ≤ 40 then
    match decode (tableCommand nbits w) with
    | .legal i => some i
    | .illegal _ => none
  else none

end Sys2Proof
end

