-- ==== Sys2Proof/Machine/Operands.lean ====
section
/-! DEFINITION. Bytes and words: the primitives `byte`, `cat`, `zext_32` and `bool` of 00_scope.md R8,
in the block's one byte order (20_memory.md R32). -/

namespace Sys2Proof.Machine

/-- `byte(w, i) = w[31-8*i : 24-8*i]`: the i-th byte in stream order (00_scope.md R8, 20_memory.md
R32). -/
def byteOf (w : Word) (i : Fin 4) : Byte := w.extractLsb' (24 - 8 * i.val) 8

/-- `cat(b0, b1, b2, b3)`: the word whose first byte is `b0` (00_scope.md R8). -/
def cat (b0 b1 b2 b3 : Byte) : Word := b0 ++ b1 ++ b2 ++ b3

/-- `B0..B3`: the four bytes of a word in stream order (30_encoding.md R43). -/
def wordBytes (w : Word) : List Byte := [byteOf w 0, byteOf w 1, byteOf w 2, byteOf w 3]

/-- `zext_32(d)` of a byte (00_scope.md R8, 30_encoding.md R44). -/
def zext32 (d : Byte) : Word := d.setWidth 32

/-- The word whose bit `k` is `bool(b)` and whose other bits are 0. -/
def bitAt (k : Nat) (b : Bool) : Word := (BitVec.ofBool b).setWidth 32 <<< k

end Sys2Proof.Machine
end

