-- ==== Sys2Proof/Machine/CrcFunction.lean ====
section
/-! DEFINITION. The CRC-32 of 41_crc.md: its constants, the byte update in its reference form (R66) and
the CRC of a sequence (R67). -/

namespace Sys2Proof.Machine

/-- `POLY`, reflected form (41_crc.md R65). -/
def crcPoly : Word := 0xEDB88320#32

/-- `INIT`, the initial register value (R65). -/
def crcInitial : Word := 0xFFFFFFFF#32

/-- `XOROUT`, the final XOR (R65). -/
def crcXorOut : Word := 0xFFFFFFFF#32

/-- One pass of R66's loop: shift right by one, with `POLY` if bit 0 was set. Bytes enter least
significant bit first (20_memory.md R34). -/
def crcShift (c : Word) : Word :=
  if c.getLsbD 0 then (c >>> 1) ^^^ crcPoly else c >>> 1

/-- `n` passes of the loop. -/
def crcShifts : Nat → Word → Word
  | 0, c => c
  | n + 1, c => crcShifts n (crcShift c)

/-- `crc_byte(c, d)` (41_crc.md R66): the reference form (92_eei_decisions.md D29). -/
def crcByteUpdate (c : Word) (d : Byte) : Word := crcShifts 8 (c ^^^ zext32 d)

/-- The register after the bytes of a list, first byte first. -/
def crcBytesUpdate (c : Word) (m : List Byte) : Word := m.foldl crcByteUpdate c

/-- The register after the four bytes of a word in stream order (41_crc.md R71). -/
def crcWordUpdate (c w : Word) : Word := crcBytesUpdate c (wordBytes w)

/-- The register of R67 before its final XOR. -/
def crcRegister (m : List Byte) : Word := crcBytesUpdate crcInitial m

/-- The CRC value of a register: the final XOR (10_state.md R21). -/
def crcValue (c : Word) : Word := c ^^^ crcXorOut

/-- `CRC32(m)` (41_crc.md R67). -/
def crc32 (m : List Byte) : Word := crcValue (crcRegister m)

end Sys2Proof.Machine
end

