-- ==== Sys2Proof/Machine/State.lean ====
section
/-! DEFINITION. The state of the block: its five elements (10_state.md R11) and, as the model's own
field, what the host has still to present at the command port. -/

namespace Sys2Proof.Machine

/-- What the host may present: one command word, or a reset (00_scope.md R9). Two ways only; a port read
is neither (20_memory.md R38). -/
inductive PortEvent where
  | command (c : Cmd)
  | reset
deriving DecidableEq, Repr

/-- Why the machine stops with a fault. There is no constructor: every command on every state has a
defined result (60_exceptions.md R80, 00_scope.md R9), and an illegal command is captured in `ERR` while
the block goes on (R84). Nobody raises a fault, so nothing here is unsafe (log 8). -/
inductive Fault where
deriving DecidableEq, Repr

/-- Why the model refuses. -/
inductive Refusal where
  /-- An instruction without a meaning yet; no arm of `exec` raises it. Safe: the run ends. -/
  | notModelled (mnemonic : String)
  /-- Raised by `launch` only, for the launch states that 93_implementation_defined.md I8 tells a model
  to refuse; no step raises it. Safe: a run from such a state does not begin (log 6). -/
  | unreachableLaunchState
deriving DecidableEq, Repr

/-- The block's five elements (10_state.md R11), and `pending`. -/
structure State where
  /-- `CRC_STATE`: the running CRC before the final XOR (R12). -/
  crcState : Word
  /-- `TYPE`: the type code, byte[0] in bits [31:24] (R13). -/
  type : Word
  /-- `ERR`: sticky, 1 once an illegal command was accepted since reset (R14). -/
  err : BitVec 1
  /-- `ERR_CAUSE`: the cause code of the first illegal command since reset (R15). -/
  errCause : BitVec 2
  /-- `ERR_OP`: the opcode of the first illegal command since reset (R16). -/
  errOp : BitVec 8
  /-- The model's own field, no element of the block: what the host presents next, in order (log 1). -/
  pending : List PortEvent
deriving DecidableEq, Repr

/-- The block right after reset (10_state.md R27, 70_reset_and_hazards.md R92), waiting for a command
(R94): nothing is presented yet (log 3). -/
def State.reset : State where
  crcState := 0xFFFFFFFF#32
  type := 0x00000000#32
  err := 0#1
  errCause := 0#2
  errOp := 0x00#8
  pending := []

end Sys2Proof.Machine
end

