-- ==== Sys2Proof/Machine/Ops.lean ====
section
/-! DEFINITION. The shared operations over State: the writes of each unit, the IllegalCommand capture,
reset and launch. -/

namespace Sys2Proof.Machine

/-- `CRC_STATE <- v`: the one write of the CRC unit (10_state.md R12). -/
def State.setCrcState (s : State) (v : Word) : State := { s with crcState := v }

/-- `TYPE <- v`: the one write of the TCX unit (10_state.md R13). -/
def State.setType (s : State) (v : Word) : State := { s with type := v }

/-- What the host has still to present (log 1). -/
def State.setPending (s : State) (evs : List PortEvent) : State := { s with pending := evs }

/-- `raise IllegalCommand(cause)`: exception entry, a capture and not a trap (60_exceptions.md R84). It
keeps the first illegal command since reset; while `ERR` = 1 it changes nothing (R86). There is no return
to model beside it: only reset clears the capture (R86). -/
def raiseIllegalCommand (cause : IllegalCause) (op : Byte) (s : State) : State :=
  if s.err = 0#1 then { s with err := 1#1, errCause := cause.code, errOp := op } else s

/-- The reset event: every element to its reset value, from any state (70_reset_and_hazards.md R92). What
the host presents afterwards is the host's and stays (log 3). -/
def resetBlock (s : State) : State := { State.reset with pending := s.pending }

/-- The launch states I8 leaves: `ERR_CAUSE` is not 3, and while `ERR` = 0 the other two capture fields
are 0 (93_implementation_defined.md I8; log 6). -/
def launchAdmissible (err : BitVec 1) (errCause : BitVec 2) (errOp : Byte) : Bool :=
  errCause != 3#2 && (err != 0#1 || (errCause == 0#2 && errOp == 0x00#8))

/-- A run's start from "an explicit launch state that names all five elements" (70_reset_and_hazards.md
R92), the ones of I8 refused; `pending` is what the host will present. -/
def launch (crcState type : Word) (err : BitVec 1) (errCause : BitVec 2) (errOp : Byte)
    (pending : List PortEvent) : Host.Outcome State Fault Refusal :=
  if launchAdmissible err errCause errOp then
    .next { crcState, type, err, errCause, errOp, pending }
  else .refused .unreachableLaunchState

end Sys2Proof.Machine
end

