-- ==== Sys2Proof/Machine/Control.lean ====
section
/-! DEFINITION. The control family: NOP, and the execution of an illegal command (42_control.md R76 to
R79). -/

namespace Sys2Proof.Machine

/-- NOP: no write (42_control.md R76). -/
def execNop (s : State) : Host.Outcome State Fault Refusal := .next s

/-- An illegal command word: the capture of its cause and opcode, and no write to `CRC_STATE` or `TYPE`
(42_control.md R77). Its operand is discarded. -/
def execIllegal (cause : IllegalCause) (c : Cmd) (s : State) : Host.Outcome State Fault Refusal :=
  .next (raiseIllegalCommand cause (opField c) s)

end Sys2Proof.Machine
end

