-- ==== Sys2Proof/Machine/Crc.lean ====
section
/-! DEFINITION. The CRC family: CRC.INIT, CRC.BYTE, CRC.WORD (41_crc.md R69 to R71). -/

namespace Sys2Proof.Machine

/-- CRC.INIT: `CRC_STATE <- INIT` (41_crc.md R69). -/
def execCrcInit (s : State) : Host.Outcome State Fault Refusal :=
  .next (s.setCrcState crcInitial)

/-- CRC.BYTE: `CRC_STATE <- crc_byte(CRC_STATE, D8)` (41_crc.md R70). -/
def execCrcByte (d8 : Byte) (s : State) : Host.Outcome State Fault Refusal :=
  .next (s.setCrcState (crcByteUpdate s.crcState d8))

/-- CRC.WORD: the four bytes of `W` in stream order (41_crc.md R71). -/
def execCrcWord (w : Word) (s : State) : Host.Outcome State Fault Refusal :=
  .next (s.setCrcState (crcWordUpdate s.crcState w))

end Sys2Proof.Machine
end

