-- ==== Sys2Proof/Machine/TypeCode.lean ====
section
/-! DEFINITION. The type-code family: TYPE.LOAD (40_typecode.md R54). Its flags are not stored: see
Machine/Flags.lean. -/

namespace Sys2Proof.Machine

/-- TYPE.LOAD: `TYPE <- W`, whatever the bytes are (40_typecode.md R54, R63). -/
def execTypeLoad (w : Word) (s : State) : Host.Outcome State Fault Refusal :=
  .next (s.setType w)

end Sys2Proof.Machine
end

