-- ==== Sys2Proof/Machine/Dispatch.lean ====
section
/-! DEFINITION. One arm per command. -/

namespace Sys2Proof.Machine

def exec (i : Instr) (s : State) : Host.Outcome State Fault Refusal :=
  match i with
  | .nop => Sys2Proof.Machine.execNop s
  | .crcInit => Sys2Proof.Machine.execCrcInit s
  | .crcByte d8 => Sys2Proof.Machine.execCrcByte d8 s
  | .crcWord w => Sys2Proof.Machine.execCrcWord w s
  | .typeLoad w => Sys2Proof.Machine.execTypeLoad w s

end Sys2Proof.Machine
end

