-- ==== Sys2Proof/Machine/Port.lean ====
section
/-! DEFINITION. What the command port does with what the host presents next (00_scope.md R9). -/

namespace Sys2Proof.Machine

/-- The acceptance of one command word: the decoded command's effect, or the illegal command's
(30_encoding.md R46, R48). -/
def acceptCommand (c : Cmd) (s : State) : Host.Outcome State Fault Refusal :=
  match decode c with
  | .legal i => exec i s
  | .illegal cause => execIllegal cause c s

/-- R9's total function `step(state, cmd) -> state'` "plus the reset event": a command word takes its
effect, or a reset, in which no command is accepted (00_scope.md R9, 70_reset_and_hazards.md R92). -/
def acceptEvent (e : PortEvent) (s : State) : Host.Outcome State Fault Refusal :=
  match e with
  | .command c => acceptCommand c s
  | .reset => .next (resetBlock s)

/-- The next event the host presents, and the state with that event taken off; with nothing presented,
none. -/
def nextEvent (s : State) : Option (PortEvent × State) :=
  match s.pending with
  | [] => none
  | e :: rest => some (e, s.setPending rest)

/-- Nothing is presented: the block waits and its state does not change (70_reset_and_hazards.md R94,
00_scope.md R9; log 2). -/
def waitForCommand (s : State) : Host.Outcome State Fault Refusal := .next s

end Sys2Proof.Machine
end

