-- ==== Sys2Proof/Machine/Step.lean ====
section
/-! DEFINITION. One step of the block: the acceptance of what the host presents next (00_scope.md R9). -/

namespace Sys2Proof.Machine

/-- One step: the next command word or reset takes its whole effect (20_memory.md R37, R39); with
nothing presented the block waits. -/
def step (s : State) : Host.Outcome State Fault Refusal :=
  match nextEvent s with
  | none => waitForCommand s
  | some (e, s') => acceptEvent e s'

/-- The state in which the host presents the table word `w` next, before all it had still to present
(log 3). -/
def State.withFetchWord (s : State) (nbits w : Nat) : State :=
  s.setPending (.command (tableCommand nbits w) :: s.pending)

end Sys2Proof.Machine
end

