-- ==== Sys2Proof/Machine/Assembler.lean ====
section
/-! DEFINITION. From assembly statements to command words: literals, the five commands, `.cmd` and the
pseudo-instructions (30_encoding.md R50, R51, R52). An assembly error is `none`; nothing is truncated. -/

namespace Sys2Proof.Machine

/-- A byte operand's value (30_encoding.md R51); none is an assembly error. -/
def byteOperand : AsmLiteral → Option Byte
  | .number n => if n < 256 then some (BitVec.ofNat 8 n) else none
  | .char b => some b
  | .string _ => none

/-- A string of exactly four bytes, packed by `cat` in stream order (30_encoding.md R51). -/
def packString : List Byte → Option Word
  | [b0, b1, b2, b3] => some (cat b0 b1 b2 b3)
  | _ => none

/-- A word operand's value (30_encoding.md R51); none is an assembly error. -/
def wordOperand : AsmLiteral → Option Word
  | .number n => if n < 4294967296 then some (BitVec.ofNat 32 n) else none
  | .char _ => none
  | .string bs => packString bs

/-- The expansion of `crc.bytes` (30_encoding.md R52): four bytes a `crc.word` while four are left, then
a `crc.byte` for each. -/
def expandBytes : List Byte → List Instr
  | b0 :: b1 :: b2 :: b3 :: rest => .crcWord (cat b0 b1 b2 b3) :: expandBytes rest
  | rest => rest.map .crcByte

/-- The expansion of `crc.chunk` for the packed type `t` (30_encoding.md R52). -/
def expandChunk (t : Word) (p : List Byte) : List Instr :=
  .crcInit :: .crcWord t :: expandBytes p

/-- The legal commands a statement stands for; none for `.cmd`, which names a word and no command, and
for an assembly error. -/
def stmtInstrs : AsmStmt → Option (List Instr)
  | .nop => some [.nop]
  | .crcInit => some [.crcInit]
  | .crcByte b => (byteOperand b).map fun d => [.crcByte d]
  | .crcWord w => (wordOperand w).map fun v => [.crcWord v]
  | .typeLoad w => (wordOperand w).map fun v => [.typeLoad v]
  | .cmd _ => none
  | .crcBytes s => some (expandBytes s)
  | .crcChunk t p => (packString t).map fun v => expandChunk v p
  | .typeCheck t => (packString t).map fun v => [.typeLoad v]

/-- The command words of a statement (30_encoding.md R50); `.cmd` gives its word as it is, "legal or
not". -/
def assembleStmt : AsmStmt → Option (List Cmd)
  | .cmd c => if c < 1099511627776 then some [BitVec.ofNat 40 c] else none
  | st => (stmtInstrs st).map fun is => is.map encode

/-- The command words of a list of statements; an error in one is an error. -/
def assembleStmts : List AsmStmt → Option (List Cmd)
  | [] => some []
  | st :: rest =>
    match assembleStmt st, assembleStmts rest with
    | some cs, some cs' => some (cs ++ cs')
    | _, _ => none

end Sys2Proof.Machine
end

