-- ==== Sys2Proof/Machine/AsmText.lean ====
section
/-! DEFINITION. From assembly text to statements: "one command per line, `;` to end of line is a comment,
mnemonics are case-insensitive" (30_encoding.md R50), and the literals of R51. What the two rules leave
to the writer of an assembler is chosen in log 10 (quotes and escapes), 11 (lines, blanks and separators),
12 (forms of a number, which literal may stand where) and 17 (case of the directive and the
pseudo-instructions). An assembly error is `none`. -/

namespace Sys2Proof.Machine

/-! ## Lines to tokens -/

/-- A token of a line. -/
inductive AsmToken where
  | word (cs : List Char)
  | quoted (l : AsmLiteral)
  | comma
deriving DecidableEq, Repr

/-- Where the reader stands in a line. Lists under construction have their last element first. -/
inductive AsmMode where
  | between
  | inWord (cs : List Char)
  /-- After an opening quote `q`. -/
  | inQuote (q : Char) (bs : List Byte)
  /-- After a backslash in a quoted literal. -/
  | escape (q : Char) (bs : List Byte)
  /-- After `\x`. -/
  | escapeHigh (q : Char) (bs : List Byte)
  /-- After `\x` and the first hexadecimal digit. -/
  | escapeLow (q : Char) (bs : List Byte) (high : Nat)
  | comment
deriving DecidableEq, Repr

/-- The reader of one line: its mode and the tokens read, the last first. -/
structure AsmReader where
  mode : AsmMode
  tokens : List AsmToken
deriving DecidableEq, Repr

/-- The value of a hexadecimal digit of either case. -/
def hexDigit (c : Char) : Option Nat :=
  if '0' ≤ c ∧ c ≤ '9' then some (c.toNat - 48)
  else if 'A' ≤ c ∧ c ≤ 'F' then some (c.toNat - 55)
  else if 'a' ≤ c ∧ c ≤ 'f' then some (c.toNat - 87)
  else none

/-- The value of a decimal digit. -/
def decimalDigit (c : Char) : Option Nat :=
  if '0' ≤ c ∧ c ≤ '9' then some (c.toNat - 48) else none

/-- The token of a closed quoted literal: one byte between single quotes, any number between double
quotes (30_encoding.md R51). -/
def closeQuote (q : Char) (bs : List Byte) : Option AsmToken :=
  if q = '"' then some (.quoted (.string bs.reverse))
  else
    match bs with
    | [b] => some (.quoted (.char b))
    | _ => none

/-- Blanks between tokens (log 11). -/
def isBlank (c : Char) : Bool := c == ' ' || c == '\t' || c == '\r'

/-- The mode and tokens after a character that stands outside quotes and comments, with no word open. -/
def readBetween (ts : List AsmToken) (c : Char) : AsmReader :=
  if isBlank c then ⟨.between, ts⟩
  else if c = ';' then ⟨.comment, ts⟩
  else if c = ',' then ⟨.between, .comma :: ts⟩
  else if c = '"' ∨ c = '\'' then ⟨.inQuote c [], ts⟩
  else ⟨.inWord [c], ts⟩

/-- Whether the character ends an open word. DESIGN CHOICE (log 11): a quote does too, so no blank is
required between a mnemonic and a quoted operand, and `crc.byte'I'` is read; 30_encoding.md R50 and R51
are silent on it. -/
def endsWord (c : Char) : Bool := isBlank c || c == ';' || c == ',' || c == '"' || c == '\''

/-- Inside a quoted literal: "only characters 0x20..0x7E may appear literally, and `\xNN` writes any
byte" (30_encoding.md R51). -/
def readQuoted (q : Char) (bs : List Byte) (ts : List AsmToken) (c : Char) : Option AsmReader :=
  if c = q then (closeQuote q bs).map fun t => ⟨.between, t :: ts⟩
  else if c = '\\' then some ⟨.escape q bs, ts⟩
  else if 0x20 ≤ c.toNat ∧ c.toNat ≤ 0x7E then
    some ⟨.inQuote q (BitVec.ofNat 8 c.toNat :: bs), ts⟩
  else none

/-- One character of a line. -/
def readChar (r : AsmReader) (c : Char) : Option AsmReader :=
  match r.mode with
  | .between => some (readBetween r.tokens c)
  | .inWord cs =>
    if endsWord c then some (readBetween (.word cs.reverse :: r.tokens) c)
    else some ⟨.inWord (c :: cs), r.tokens⟩
  | .inQuote q bs => readQuoted q bs r.tokens c
  | .escape q bs => if c = 'x' then some ⟨.escapeHigh q bs, r.tokens⟩ else none
  | .escapeHigh q bs => (hexDigit c).map fun h => ⟨.escapeLow q bs h, r.tokens⟩
  | .escapeLow q bs h =>
    (hexDigit c).map fun l => ⟨.inQuote q (BitVec.ofNat 8 (16 * h + l) :: bs), r.tokens⟩
  | .comment => some r

/-- The characters of a line, in order. -/
def readChars (r : AsmReader) : List Char → Option AsmReader
  | [] => some r
  | c :: cs =>
    match readChar r c with
    | some r' => readChars r' cs
    | none => none

/-- The tokens at the end of a line; a quote left open is an error. -/
def finishLine (r : AsmReader) : Option (List AsmToken) :=
  match r.mode with
  | .between => some r.tokens.reverse
  | .inWord cs => some (AsmToken.word cs.reverse :: r.tokens).reverse
  | .inQuote _ _ => none
  | .escape _ _ => none
  | .escapeHigh _ _ => none
  | .escapeLow _ _ _ => none
  | .comment => some r.tokens.reverse

/-- The tokens of a line. -/
def lineTokens (line : List Char) : Option (List AsmToken) :=
  (readChars ⟨.between, []⟩ line).bind finishLine

/-! ## Tokens to statements -/

/-- Digits to a number in the given base, onto what was read before them. -/
def readDigits (digit : Char → Option Nat) (base : Nat) (n : Nat) : List Char → Option Nat
  | [] => some n
  | c :: cs =>
    match digit c with
    | some d => readDigits digit base (base * n + d) cs
    | none => none

/-- A number: decimal, or hexadecimal after `0x` (30_encoding.md R51). -/
def readNumber : List Char → Option Nat
  | [] => none
  | ['0', 'x'] => none
  | '0' :: 'x' :: ds => readDigits hexDigit 16 0 ds
  | ds => readDigits decimalDigit 10 0 ds

/-- The word of `.cmd`: a number, or ten hexadecimal digits with an underscore between opcode and operand
(00_scope.md R7, 42_control.md R77's example). -/
def readCommandNumber : List Char → Option Nat
  | ['0', 'x', o1, o0, '_', w7, w6, w5, w4, w3, w2, w1, w0] =>
    readDigits hexDigit 16 0 [o1, o0, w7, w6, w5, w4, w3, w2, w1, w0]
  | cs => readNumber cs

/-- The literal of an operand token. -/
def operandLiteral : AsmToken → Option AsmLiteral
  | .word cs => (readNumber cs).map .number
  | .quoted l => some l
  | .comma => none

/-- The statement words of R50 and R52. -/
inductive AsmMnemonic where
  | nop | crcInit | crcByte | crcWord | typeLoad | cmd | crcBytes | crcChunk | typeCheck
deriving DecidableEq, Repr

/-- The spelling of each, in lower case (30_encoding.md R50, R52). -/
def AsmMnemonic.spelling : AsmMnemonic → List Char
  | .nop => "nop".toList
  | .crcInit => "crc.init".toList
  | .crcByte => "crc.byte".toList
  | .crcWord => "crc.word".toList
  | .typeLoad => "type.load".toList
  | .cmd => ".cmd".toList
  | .crcBytes => "crc.bytes".toList
  | .crcChunk => "crc.chunk".toList
  | .typeCheck => "type.check".toList

/-- All statement words. -/
def AsmMnemonic.all : List AsmMnemonic :=
  [.nop, .crcInit, .crcByte, .crcWord, .typeLoad, .cmd, .crcBytes, .crcChunk, .typeCheck]

/-- The statement word a token spells; "mnemonics are case-insensitive" (30_encoding.md R50). DESIGN CHOICE
(log 17): the directive `.cmd` and the pseudo-instructions `crc.bytes`, `crc.chunk` and `type.check`, which
92_eei_decisions.md D21 names apart from the mnemonics, are read in any case too. -/
def readMnemonic (cs : List Char) : Option AsmMnemonic :=
  AsmMnemonic.all.find? fun m => m.spelling == cs.map Char.toLower

/-- The statement of a mnemonic and its operand tokens (30_encoding.md R50, R52). -/
def readStmt (m : AsmMnemonic) (args : List AsmToken) : Option AsmStmt :=
  match m, args with
  | .nop, [] => some .nop
  | .crcInit, [] => some .crcInit
  | .crcByte, [a] => (operandLiteral a).map .crcByte
  | .crcWord, [a] => (operandLiteral a).map .crcWord
  | .typeLoad, [a] => (operandLiteral a).map .typeLoad
  | .cmd, [.word cs] => (readCommandNumber cs).map .cmd
  | .crcBytes, [.quoted (.string s)] => some (.crcBytes s)
  | .crcChunk, [.quoted (.string t), .comma, .quoted (.string p)] => some (.crcChunk t p)
  | .typeCheck, [.quoted (.string t)] => some (.typeCheck t)
  | _, _ => none

/-- The statements of a line: one, or none on a line that is blank or only a comment. -/
def lineStmts (line : List Char) : Option (List AsmStmt) :=
  match lineTokens line with
  | some [] => some []
  | some (.word cs :: args) =>
    match readMnemonic cs with
    | some m => (readStmt m args).map fun st => [st]
    | none => none
  | _ => none

/-! ## Text to command words -/

/-- The lines of a text. -/
def splitLines : List Char → List (List Char)
  | [] => [[]]
  | c :: cs =>
    if c = '\n' then [] :: splitLines cs
    else
      match splitLines cs with
      | [] => [[c]]
      | line :: rest => (c :: line) :: rest

/-- The statements of a list of lines; an error in one is an error. -/
def linesStmts : List (List Char) → Option (List AsmStmt)
  | [] => some []
  | line :: rest =>
    match lineStmts line, linesStmts rest with
    | some sts, some sts' => some (sts ++ sts')
    | _, _ => none

/-- The command words of an assembly text (30_encoding.md R50 to R52). -/
def assembleText (text : List Char) : Option (List Cmd) :=
  (linesStmts (splitLines text)).bind assembleStmts

end Sys2Proof.Machine
end

