-- ==== Sys2Proof/Machine/Instances.lean ====
section
/-! DEFINITION. Several block instances: independent agents that share nothing (20_memory.md R40,
60_exceptions.md R90). Which instance steps is an argument, so every interleaving is covered (log 13). -/

namespace Sys2Proof.Machine

/-- Instance `k` of `blocks` takes one step; with no such instance nothing happens. -/
def stepInstance (k : Nat) (blocks : List State) : Host.Outcome (List State) Fault Refusal :=
  match blocks[k]? with
  | none => .next blocks
  | some s =>
    match step s with
    | .next t => .next (blocks.set k t)
    | .fault f => .fault f
    | .refused r => .refused r

end Sys2Proof.Machine
end

