-- ==== Sys2Proof/Machine/Flags.lean ====
section
/-! DEFINITION. The type-code flags: each a combinational function of `TYPE` alone (40_typecode.md R53
to R63), and their port layout (10_state.md R23). -/

namespace Sys2Proof.Machine

/-- `ALPHA(b)`: the byte is in 'A'..'Z' or 'a'..'z' (40_typecode.md R53). -/
def alpha (b : Byte) : Bool :=
  (0x41#8 ≤ b && b ≤ 0x5A#8) || (0x61#8 ≤ b && b ≤ 0x7A#8)

/-- `ALPHAi` (R55). -/
def alphaAt (type : Word) (i : Fin 4) : Bool := alpha (byteOf type i)

/-- `TYPE_OK`: all four bytes are alphabetic (R56). -/
def typeOk (type : Word) : Bool :=
  alphaAt type 0 && alphaAt type 1 && alphaAt type 2 && alphaAt type 3

/-- Bit 5 (0x20) of byte[i] of the type code (00_scope.md R3). -/
def bit5 (type : Word) (i : Fin 4) : Bool := (byteOf type i).getLsbD 5

/-- `CRITICAL`: bit 5 of byte[0] is clear (R57). -/
def flagCritical (type : Word) : Bool := !bit5 type 0

/-- `PUBLIC`: bit 5 of byte[1] is clear (R58). -/
def flagPublic (type : Word) : Bool := !bit5 type 1

/-- `RESERVED_VALID`: bit 5 of byte[2] is clear (R59; 90_conflicts.md C1). -/
def flagReservedValid (type : Word) : Bool := !bit5 type 2

/-- `SAFE_TO_COPY`: bit 5 of byte[3] is set, the opposite polarity (R60). -/
def flagSafeToCopy (type : Word) : Bool := bit5 type 3

/-- `VALID`: `TYPE_OK` and `RESERVED_VALID` (R61). -/
def flagValid (type : Word) : Bool := typeOk type && flagReservedValid type

/-- The value of port P3 `TFLAGS` (10_state.md R23): bits 9..0 are the flags, bits 31..10 are 0. -/
def tflags (type : Word) : Word :=
  bitAt 0 (alphaAt type 0) ||| bitAt 1 (alphaAt type 1) ||| bitAt 2 (alphaAt type 2) |||
  bitAt 3 (alphaAt type 3) ||| bitAt 4 (typeOk type) ||| bitAt 5 (flagCritical type) |||
  bitAt 6 (flagPublic type) ||| bitAt 7 (flagReservedValid type) |||
  bitAt 8 (flagSafeToCopy type) ||| bitAt 9 (flagValid type)

end Sys2Proof.Machine
end

