-- ==== Sys2Proof/Machine/Ports.lean ====
section
/-! DEFINITION. The five output ports: each a function of the state alone, read without side effect
(10_state.md R19 to R24, 20_memory.md R38), the wire bytes of the CRC (20_memory.md R35), and the
evidence the host tests for two of the source's errors (60_exceptions.md R88). -/

namespace Sys2Proof.Machine

/-- The ports P0 to P4 (10_state.md R19). The host reads; the block has no read command. -/
inductive Port where
  /-- P0 `CRC_STATE_O` (R20). -/
  | crcStateO
  /-- P1 `CRC_OUT` (R21). -/
  | crcOut
  /-- P2 `TYPE_O` (R22). -/
  | typeO
  /-- P3 `TFLAGS` (R23). -/
  | tflags
  /-- P4 `STATUS` (R24). -/
  | status
deriving DecidableEq, Repr

/-- `STATUS = zext_32(ERR_OP) << 8 | zext_32(ERR_CAUSE) << 1 | zext_32(ERR)` (10_state.md R24). -/
def statusWord (err : BitVec 1) (errCause : BitVec 2) (errOp : Byte) : Word :=
  (errOp.setWidth 32 <<< 8) ||| (errCause.setWidth 32 <<< 1) ||| err.setWidth 32

/-- What a port shows in a state. -/
def readPort (p : Port) (s : State) : Word :=
  match p with
  | .crcStateO => s.crcState
  | .crcOut => crcValue s.crcState
  | .typeO => s.type
  | .tflags => tflags s.type
  | .status => statusWord s.err s.errCause s.errOp

/-- All five ports, P0 first, read from one state (20_memory.md R37). -/
def readPorts (s : State) : List Word :=
  [readPort .crcStateO s, readPort .crcOut s, readPort .typeO s, readPort .tflags s,
    readPort .status s]

/-- The four bytes that carry the CRC on the wire, most significant first (20_memory.md R35). -/
def crcWireBytes (s : State) : List Byte := wordBytes (readPort .crcOut s)

/-- The host's test for the source's `InvalidByte`: `TYPE_OK` = 0 (60_exceptions.md R88). -/
def invalidByteEvidence (s : State) : Bool := !(readPort .tflags s).getLsbD 4

/-- The host's test for the source's `ChecksumMismatch`: `CRC_OUT` differs from the chunk's trailing
word (60_exceptions.md R88, 41_crc.md R73). -/
def checksumMismatchEvidence (trailing : Word) (s : State) : Bool :=
  readPort .crcOut s != trailing

end Sys2Proof.Machine
end

