-- ==== Sys2Proof/Machine/Stream.lean ====
section
/-! DEFINITION. What a sequence of port events amounts to, in the spec's own terms: the bytes it
accumulates (41_crc.md R72), the type code it loads (10_state.md R22) and the illegal command it leaves
captured (10_state.md R14 to R16). Claims are stated in these terms; no step reads them. -/

namespace Sys2Proof.Machine

/-- The byte sequence accumulated since the last reset or CRC.INIT, after one more event; illegal
commands contribute nothing (41_crc.md R72). -/
def accumulateEvent (m : List Byte) (e : PortEvent) : List Byte :=
  match e with
  | .reset => []
  | .command c =>
    match decode c with
    | .legal .nop => m
    | .legal .crcInit => []
    | .legal (.crcByte d8) => m ++ [d8]
    | .legal (.crcWord w) => m ++ wordBytes w
    | .legal (.typeLoad _) => m
    | .illegal _ => m

/-- The word last loaded, 0x00000000 after a reset (10_state.md R13, R22). -/
def loadedEvent (t : Word) (e : PortEvent) : Word :=
  match e with
  | .reset => 0x00000000#32
  | .command c =>
    match decode c with
    | .legal (.typeLoad w) => w
    | .legal .nop => t
    | .legal .crcInit => t
    | .legal (.crcByte _) => t
    | .legal (.crcWord _) => t
    | .illegal _ => t

/-- The first illegal command since the last reset, as cause and opcode, after one more event
(10_state.md R14 to R16). -/
def firstIllegalEvent (first : Option (IllegalCause × Byte)) (e : PortEvent) :
    Option (IllegalCause × Byte) :=
  match e with
  | .reset => none
  | .command c =>
    match first, decode c with
    | some f, _ => some f
    | none, .legal _ => none
    | none, .illegal cause => some (cause, opField c)

/-- The capture fields record exactly this first illegal command, or none (10_state.md R14 to R16). -/
def State.captured (s : State) (first : Option (IllegalCause × Byte)) : Bool :=
  match first with
  | none => s.err == 0#1 && s.errCause == 0#2 && s.errOp == 0x00#8
  | some (cause, op) => s.err == 1#1 && s.errCause == cause.code && s.errOp == op

/-- The event presents a legal command or is a reset. -/
def PortEvent.legal (e : PortEvent) : Bool :=
  match e with
  | .reset => true
  | .command c =>
    match decode c with
    | .legal _ => true
    | .illegal _ => false

/-- The command words of a list of instructions, as the host presents them. -/
def presented (is : List Instr) : List PortEvent := is.map fun i => .command (encode i)

end Sys2Proof.Machine
end

