-- ==== Sys2Proof/Safety.lean ====
section
/-! DEFINITION. What counts as a safe run, and the invariant of the error capture, in the terms claims
use. -/

namespace Sys2Proof.Machine

/-- No illegal command was accepted since reset: the premise "`ERR` = 0 at its end" of a claim about a
run (60_exceptions.md R91, 70_reset_and_hazards.md R97). -/
def State.errClear (s : State) : Bool := s.err == 0#1

/-- The capture fields are ones the block can hold (10_state.md R14 to R16, 60_exceptions.md R80): all 0
while `ERR` = 0; otherwise cause 1 with an unassigned opcode, or cause 2 with opcode 0x00, 0x01 or 0x02. -/
def State.captureWf (s : State) : Bool :=
  (s.err == 0#1 && s.errCause == 0#2 && s.errOp == 0x00#8) ||
  (s.err == 1#1 && ((s.errCause == 1#2 && 0x05#8 ≤ s.errOp) ||
    (s.errCause == 2#2 && s.errOp ≤ 0x02#8)))

end Sys2Proof.Machine
end

