-- ==== Sys2Proof/Certificates/Slice0/Obligations.lean ====
section
/-! DEFINITION. The statements for the provers. A run is `Host.Core.run Sys2Proof.core k s`: `k` steps of
the machine. A statement over a run quantifies over every sequence of events the host may present and
over every state it starts from. -/

open Sys2Proof Sys2Proof.Machine

/-! ## Reset and ports -/

/-- 70_reset_and_hazards.md R92: reset writes every element to its reset value in one step, whatever the
state was. `pending` keeps what stands behind the reset (log 3: the model's choice). -/
def Obligations.ResetStepWritesEveryElement : Prop :=
  ∀ (s : State) (rest : List PortEvent), s.pending = .reset :: rest →
    step s = .next (State.mk 0xFFFFFFFF#32 0x00000000#32 0#1 0#2 0x00#8 rest)

/-- R93: what the five ports read after reset, from any state. -/
def Obligations.PortsReadTheirResetValuesAfterReset : Prop :=
  ∀ (s : State) (rest : List PortEvent), s.pending = .reset :: rest →
    ∃ t, step s = .next t ∧ readPort .crcStateO t = 0xFFFFFFFF#32 ∧
      readPort .crcOut t = 0x00000000#32 ∧ readPort .typeO t = 0x00000000#32 ∧
      readPort .tflags t = 0x000000E0#32 ∧ readPort .status t = 0x00000000#32

/-- 10_state.md R20, and R21's value of `CRC_OUT`. -/
def Obligations.CrcPortsReadRegisterAndItsFinalXor : Prop :=
  (∀ s : State, readPort .crcStateO s = s.crcState ∧
    (readPort .crcOut s).toNat = 0xFFFFFFFF - s.crcState.toNat) ∧
  readPort .crcStateO State.reset = 0xFFFFFFFF#32 ∧ readPort .crcOut State.reset = 0x00000000#32

/-- 10_state.md R24: the fields of `STATUS`, its reserved bits and its reset value. -/
def Obligations.StatusPortHoldsTheCaptureFields : Prop :=
  (∀ s : State,
    (readPort .status s).toNat = s.err.toNat + 2 * s.errCause.toNat + 256 * s.errOp.toNat ∧
    (∀ k, 3 ≤ k → k ≤ 7 → (readPort .status s).getLsbD k = false) ∧
    (∀ k, 16 ≤ k → (readPort .status s).getLsbD k = false)) ∧
  readPort .status State.reset = 0x00000000#32

/-! ## The five commands: result, completion and frame in one equation each -/

/-- 42_control.md R76: a NOP writes nothing. -/
def Obligations.NopWritesNothing : Prop :=
  ∀ s : State, exec .nop s = .next s

/-- 41_crc.md R69: CRC.INIT writes 0xFFFFFFFF to `CRC_STATE` and nothing else. -/
def Obligations.CrcInitWritesTheInitialValueOnly : Prop :=
  ∀ s : State, exec .crcInit s = .next { s with crcState := 0xFFFFFFFF#32 }

/-- 41_crc.md R70 with R66's loop written out: eight passes over `CRC_STATE ^ zext_32(D8)`. Nothing but
`CRC_STATE` is written. -/
def Obligations.CrcByteRunsTheReflectedLoop : Prop :=
  ∀ (d8 : Byte) (s : State), exec (.crcByte d8) s = .next { s with
    crcState := Nat.repeat
      (fun c : Word => if c.getLsbD 0 = true then (c >>> 1) ^^^ 0xEDB88320#32 else c >>> 1)
      8 (s.crcState ^^^ d8.setWidth 32) }

/-- 41_crc.md R71: CRC.WORD runs the byte update on W[31:24], W[23:16], W[15:8], W[7:0] in this order,
and writes nothing but `CRC_STATE`. -/
def Obligations.CrcWordRunsFourByteUpdatesInStreamOrder : Prop :=
  ∀ (w : Word) (s : State), exec (.crcWord w) s = .next { s with
    crcState :=
      crcByteUpdate (crcByteUpdate (crcByteUpdate (crcByteUpdate s.crcState
        (w.extractLsb' 24 8)) (w.extractLsb' 16 8)) (w.extractLsb' 8 8)) (w.extractLsb' 0 8) }

/-- 40_typecode.md R54: TYPE.LOAD writes `W` to `TYPE`, for every `W`, and nothing else. -/
def Obligations.TypeLoadWritesTheTypeOnly : Prop :=
  ∀ (w : Word) (s : State), exec (.typeLoad w) s = .next { s with type := w }

/-! ## Steps -/

/-- A step with a legal command word presented is `exec` of the decoded command on the state without that
word. -/
def Obligations.StepRunsTheDecodedCommand : Prop :=
  ∀ (s : State) (c : Cmd) (rest : List PortEvent) (i : Instr),
    s.pending = .command c :: rest → decode c = .legal i →
    step s = exec i { s with pending := rest }

/-- 60_exceptions.md R84: the IllegalCommand capture, and nothing else, with the opcode from bits 39:32. -/
def Obligations.IllegalCommandIsCapturedIfFirst : Prop :=
  ∀ (s : State) (c : Cmd) (rest : List PortEvent) (cause : IllegalCause),
    s.pending = .command c :: rest → decode c = .illegal cause →
    step s = .next (
      if s.err = 0#1 then
        { s with
          err := 1#1
          errCause := match cause with
            | .unassignedOpcode => 1#2
            | .reservedBits => 2#2
          errOp := c.extractLsb' 32 8
          pending := rest }
      else { s with pending := rest })

/-- While nothing is presented the block waits and nothing changes. That this is a step at all is the
model's choice (log 2). -/
def Obligations.BlockWaitsWhileNothingIsPresented : Prop :=
  ∀ s : State, s.pending = [] → step s = .next s

/-- 00_scope.md R9, 60_exceptions.md R80: the step is total, on every state and whatever is presented; it
takes one event. That the events stand in the state is the model's choice (log 1), and so is that a step
with nothing presented answers at all (log 2: R9 knows a step only as the acceptance of a word or a
reset). -/
def Obligations.EveryStepAnswersANextState : Prop :=
  ∀ s : State, ∃ t, step s = .next t ∧ t.pending = s.pending.tail

/-! ## Encoding -/

/-- 30_encoding.md R46: the decoder, with OP and W read as numbers from the 40-bit word. -/
def Obligations.DecoderFollowsTheOpcodeMap : Prop :=
  ∀ c : Cmd, let op := c.toNat / 2 ^ 32; let w := c.toNat % 2 ^ 32
    (op = 0 → w = 0 → decode c = .legal .nop) ∧
    (op = 0 → w ≠ 0 → decode c = .illegal .reservedBits) ∧
    (op = 1 → w = 0 → decode c = .legal .crcInit) ∧
    (op = 1 → w ≠ 0 → decode c = .illegal .reservedBits) ∧
    (op = 2 → w / 2 ^ 8 = 0 → decode c = .legal (.crcByte (BitVec.ofNat 8 w))) ∧
    (op = 2 → w / 2 ^ 8 ≠ 0 → decode c = .illegal .reservedBits) ∧
    (op = 3 → decode c = .legal (.crcWord (BitVec.ofNat 32 w))) ∧
    (op = 4 → decode c = .legal (.typeLoad (BitVec.ofNat 32 w))) ∧
    (5 ≤ op → decode c = .illegal .unassignedOpcode)

/-- 60_exceptions.md R81 and R82: which words raise which cause, and what is then recorded; no other word
raises either. From `ERR` = 0, so that the capture is this word's. -/
def Obligations.CauseFollowsFromOpcodeAndReservedBits : Prop :=
  ∀ (s : State) (c : Cmd) (rest : List PortEvent),
    s.pending = .command c :: rest → s.err = 0#1 →
    let op := c.toNat / 2 ^ 32; let w := c.toNat % 2 ^ 32
    let unassigned := 5 ≤ op
    let reserved := (op ≤ 1 ∧ w ≠ 0) ∨ (op = 2 ∧ w / 2 ^ 8 ≠ 0)
    ∃ t, step s = .next t ∧
      (unassigned → t.err = 1#1 ∧ t.errCause = 1#2 ∧ t.errOp.toNat = op) ∧
      (reserved → t.err = 1#1 ∧ t.errCause = 2#2 ∧ t.errOp.toNat = op) ∧
      (¬ unassigned → ¬ reserved →
        t.err = 0#1 ∧ t.errCause = s.errCause ∧ t.errOp = s.errOp)

/-- 30_encoding.md R45: by match and mask, a word lies in exactly the row of the command it decodes to,
and in no row if it is illegal. -/
def Obligations.WordLiesInExactlyItsCommandsRow : Prop :=
  ∀ c : Cmd, (opcodeTable.filter (fun r => r.admits c)).map (fun r => r.mnemonic) =
    match decode c with
    | .legal i => [i.mnemonic]
    | .illegal _ => []

/-- Decoding and encoding agree, both ways: a word decodes to a command exactly if it is that command's
encoding, for every operand. -/
def Obligations.DecodeAnswersCommandIffWordIsItsEncoding : Prop :=
  ∀ (i : Instr) (c : Cmd), decode c = .legal i ↔ c = encode i

/-- Some words of the spec's tables decode to what stands beside them (95_test_vectors.md sections 4
and 6). -/
def Obligations.WordsOfTheSpecDecode : Prop :=
  decode 0x0000000000#40 = .legal .nop ∧ decode 0x0100000000#40 = .legal .crcInit ∧
  decode 0x02000000FF#40 = .legal (.crcByte 0xFF#8) ∧
  decode 0x0349454E44#40 = .legal (.crcWord 0x49454E44#32) ∧
  decode 0x0452755374#40 = .legal (.typeLoad 0x52755374#32) ∧
  decode 0x0180000000#40 = .illegal .reservedBits ∧
  decode 0x0200000100#40 = .illegal .reservedBits ∧
  decode 0xFFFFFFFFFF#40 = .illegal .unassignedOpcode

/-! ## The CRC unit -/

/-- 41_crc.md R67 as its two equations: the CRC of the empty sequence, and of one more byte. -/
def Obligations.Crc32StartsFromInitAndTakesBytesInOrder : Prop :=
  crc32 [] = 0x00000000#32 ∧
  ∀ (m : List Byte) (d : Byte),
    crc32 (m ++ [d]) = crcByteUpdate (crc32 m ^^^ 0xFFFFFFFF#32) d ^^^ 0xFFFFFFFF#32

/-- 41_crc.md R68: the printed table is `crc_byte(0, n)` for every n, and the table-driven update equals
the bitwise one on every input. -/
def Obligations.TableDrivenUnitEqualsBitwiseUnit : Prop :=
  crcTable.length = 256 ∧
  (∀ n : Byte, crcTable[n.toNat]? = some (crcByteUpdate 0#32 n)) ∧
  (∀ (c : Word) (d : Byte), crcByteUpdateByTable c d = crcByteUpdate c d)

/-- 41_crc.md R74: `crc_byte` is linear over GF(2). -/
def Obligations.CrcByteIsLinear : Prop :=
  crcByteUpdate 0#32 0#8 = 0#32 ∧
  ∀ (c₁ c₂ : Word) (d₁ d₂ : Byte),
    crcByteUpdate (c₁ ^^^ c₂) (d₁ ^^^ d₂) = crcByteUpdate c₁ d₁ ^^^ crcByteUpdate c₂ d₂

/-- For each byte the update is a bijection of the register, so no two registers are ever merged: with
R74, the ground of R75. -/
def Obligations.CrcByteIsABijectionOfTheRegister : Prop :=
  ∀ d : Byte, Function.Bijective (fun c : Word => crcByteUpdate c d)

/-- 41_crc.md R75: flipping bit `b` of byte `k` of a sequence changes its CRC, and so `CRC_OUT` of a block
that has accumulated it. -/
def Obligations.SingleBitErrorChangesTheCrc : Prop :=
  ∀ (m : List Byte) (k b : Nat), k < m.length → b < 8 →
    let flipped := m.modify k (fun d => d ^^^ (1#8 <<< b))
    crc32 flipped ≠ crc32 m ∧
    ∀ s u : State, s.crcState = crcRegister m → u.crcState = crcRegister flipped →
      readPort .crcOut u ≠ readPort .crcOut s

/-- 41_crc.md R72: after any events, from a state whose register holds the bytes `m`, the register and
`CRC_OUT` are those of the bytes accumulated since the last reset or CRC.INIT. With `evs` any prefix of
what is presented, this holds at every step; with `m` empty, from reset. -/
def Obligations.RunLeavesTheCrcOfTheAccumulatedBytes : Prop :=
  ∀ (s : State) (m : List Byte) (evs rest : List PortEvent),
    s.pending = evs ++ rest → s.crcState = crcRegister m →
    ∃ t, Host.Core.run core evs.length s = .next t ∧ t.pending = rest ∧
      t.crcState = crcRegister (evs.foldl accumulateEvent m) ∧
      readPort .crcOut t = crc32 (evs.foldl accumulateEvent m)

/-- 41_crc.md R71: CRC.WORD has exactly the effect of four CRC.BYTE commands in stream order, on the whole
state. -/
def Obligations.WordCommandEqualsFourByteCommands : Prop :=
  ∀ (s : State) (w : Word) (rest : List PortEvent),
    Host.Core.run core 1 { s with pending := presented [.crcWord w] ++ rest } =
    Host.Core.run core 4 { s with
      pending := presented [.crcByte (w.extractLsb' 24 8), .crcByte (w.extractLsb' 16 8),
        .crcByte (w.extractLsb' 8 8), .crcByte (w.extractLsb' 0 8)] ++ rest }

/-! ## The type-code unit -/

/-- 40_typecode.md R53. -/
def Obligations.AlphaIsTheTwoLetterRanges : Prop :=
  ∀ b : Byte, alpha b = true ↔
    (65 ≤ b.toNat ∧ b.toNat ≤ 90) ∨ (97 ≤ b.toNat ∧ b.toNat ≤ 122)

/-- 10_state.md R23 with 40_typecode.md R55, R56 and R61: every bit of `TFLAGS` from the four bytes of
`TYPE` read as numbers, bits 31:10 zero, and the reset value. -/
def Obligations.TflagsLayoutFollowsTheFourBytes : Prop :=
  (∀ s : State,
    let byte : Nat → Nat := fun i => s.type.toNat / 2 ^ (24 - 8 * i) % 256
    let letter : Nat → Prop := fun n => (65 ≤ n ∧ n ≤ 90) ∨ (97 ≤ n ∧ n ≤ 122)
    let flag : Nat → Bool := fun k => (readPort .tflags s).getLsbD k
    (∀ i, i < 4 → (flag i = true ↔ letter (byte i))) ∧
    (flag 4 = true ↔ ∀ i, i < 4 → letter (byte i)) ∧
    (flag 5 = true ↔ byte 0 / 32 % 2 = 0) ∧
    (flag 6 = true ↔ byte 1 / 32 % 2 = 0) ∧
    (flag 7 = true ↔ byte 2 / 32 % 2 = 0) ∧
    (flag 8 = true ↔ byte 3 / 32 % 2 = 1) ∧
    (flag 9 = true ↔ (∀ i, i < 4 → letter (byte i)) ∧ byte 2 / 32 % 2 = 0) ∧
    (∀ k, 10 ≤ k → flag k = false)) ∧
  readPort .tflags State.reset = 0x000000E0#32

/-- 40_typecode.md R57 to R60: the four property flags are bits 29, 21, 13 and 5 of `TYPE`, the last with
the opposite polarity, whatever the bytes are (R62). -/
def Obligations.PropertyFlagsReadBitFiveOfTheirByte : Prop :=
  ∀ s : State,
    (readPort .tflags s).getLsbD 5 = !(s.type.getLsbD 29) ∧
    (readPort .tflags s).getLsbD 6 = !(s.type.getLsbD 21) ∧
    (readPort .tflags s).getLsbD 7 = !(s.type.getLsbD 13) ∧
    (readPort .tflags s).getLsbD 8 = s.type.getLsbD 5

/-- 10_state.md R22, 40_typecode.md R64: after any events `TYPE_O` is the word last loaded, exactly; 0
after a reset without a load. -/
def Obligations.TypePortReturnsTheWordLastLoaded : Prop :=
  ∀ (s : State) (evs rest : List PortEvent), s.pending = evs ++ rest →
    ∃ t, Host.Core.run core evs.length s = .next t ∧ t.pending = rest ∧
      readPort .typeO t = evs.foldl loadedEvent s.type

/-- 10_state.md R25: only a TYPE.LOAD or a reset changes a `TFLAGS` bit. -/
def Obligations.OnlyTypeLoadAndResetChangeTflags : Prop :=
  ∀ s t : State, step s = .next t → readPort .tflags t ≠ readPort .tflags s →
    (∃ rest, s.pending = .reset :: rest) ∨
    (∃ c rest w, s.pending = .command c :: rest ∧ decode c = .legal (.typeLoad w) ∧ t.type = w)

/-- 60_exceptions.md R88, 40_typecode.md R54 and R56: a type code with a byte that is no letter is loaded
all the same, and the host sees it as `TYPE_OK` = 0. -/
def Obligations.LoadedNonLetterShowsAsInvalidByte : Prop :=
  ∀ (s : State) (w : Word) (rest : List PortEvent),
    s.pending = .command (encode (.typeLoad w)) :: rest →
    ∃ t, step s = .next t ∧ t.type = w ∧
      (invalidByteEvidence t = true ↔ ∃ i : Fin 4,
        ¬ ((65 ≤ (byteOf w i).toNat ∧ (byteOf w i).toNat ≤ 90) ∨
          (97 ≤ (byteOf w i).toNat ∧ (byteOf w i).toNat ≤ 122)))

/-! ## The error capture -/

/-- The capture invariant holds at reset. -/
def Obligations.CaptureInvariantHoldsAtReset : Prop := State.reset.captureWf = true

/-- Every step keeps the capture invariant, from every state that has it: `ERR_CAUSE` is never 3, the
fields are 0 while `ERR` = 0, and otherwise the recorded opcode is one that raises the recorded cause
(10_state.md R15, R16; 60_exceptions.md R80). -/
def Obligations.EveryStepKeepsTheCaptureInvariant : Prop :=
  ∀ s t : State, s.captureWf = true → step s = .next t → t.captureWf = true

/-- 10_state.md R14, R15, R16: after any events the capture records exactly the first illegal command
since the last reset, with its cause and opcode, or nothing. -/
def Obligations.CaptureRecordsTheFirstIllegalCommandSinceReset : Prop :=
  ∀ (s : State) (first : Option (IllegalCause × Byte)) (evs rest : List PortEvent),
    s.pending = evs ++ rest → s.captured first = true →
    ∃ t, Host.Core.run core evs.length s = .next t ∧ t.pending = rest ∧
      t.captured (evs.foldl firstIllegalEvent first) = true

/-- 10_state.md R14: `ERR` goes up only by an illegal command, and down only by reset. -/
def Obligations.OnlyIllegalCommandSetsErrAndOnlyResetClearsIt : Prop :=
  ∀ s t : State, step s = .next t →
    (s.err = 0#1 → t.err = 1#1 →
      ∃ c rest cause, s.pending = .command c :: rest ∧ decode c = .illegal cause) ∧
    (s.err = 1#1 → t.err = 0#1 → ∃ rest, s.pending = .reset :: rest)

/-- 60_exceptions.md R86: while `ERR` = 1 no command, legal or not, changes the capture; legal commands
still have their effect on the data. -/
def Obligations.CaptureStaysUntilResetWhileCommandsGoOn : Prop :=
  ∀ (s : State) (evs rest : List PortEvent),
    s.pending = evs ++ rest → s.err = 1#1 → .reset ∉ evs →
    ∃ t u, Host.Core.run core evs.length s = .next t ∧
      t.err = 1#1 ∧ t.errCause = s.errCause ∧ t.errOp = s.errOp ∧
      Host.Core.run core evs.length { s with err := 0#1 } = .next u ∧
      t.crcState = u.crcState ∧ t.type = u.type

/-! ## Independence -/

/-- 10_state.md R28: what each command may write. -/
def Obligations.CommandsWriteOnlyTheirOwnUnit : Prop :=
  ∀ (i : Instr) (s t : State), exec i s = .next t →
    t.err = s.err ∧ t.errCause = s.errCause ∧ t.errOp = s.errOp ∧ t.pending = s.pending ∧
    ((∀ w, i ≠ .typeLoad w) → t.type = s.type) ∧
    ((i = .nop ∨ ∃ w, i = .typeLoad w) → t.crcState = s.crcState)

/-- 10_state.md R28: the CRC unit, the TCX unit and the capture never learn from each other. Two runs over
the same events agree afterwards on each of the three on which they agreed before, whatever the other two
held. -/
def Obligations.UnitsNeverLearnFromEachOther : Prop :=
  ∀ (s u : State) (evs rest : List PortEvent),
    s.pending = evs ++ rest → u.pending = evs ++ rest →
    ∃ s' u', Host.Core.run core evs.length s = .next s' ∧
      Host.Core.run core evs.length u = .next u' ∧
      (s.crcState = u.crcState → s'.crcState = u'.crcState) ∧
      (s.type = u.type → s'.type = u'.type) ∧
      (s.err = u.err → s.errCause = u.errCause → s.errOp = u.errOp →
        s'.err = u'.err ∧ s'.errCause = u'.errCause ∧ s'.errOp = u'.errOp)

/-- 42_control.md R77, 60_exceptions.md R85: illegal commands do not disturb the data. Leaving them out of
what is presented gives the same `CRC_STATE` and `TYPE`. -/
def Obligations.IllegalCommandsDoNotDisturbTheData : Prop :=
  ∀ (s u : State) (evs : List PortEvent),
    s.pending = evs → u.pending = evs.filter PortEvent.legal →
    s.crcState = u.crcState → s.type = u.type →
    ∃ s' u', Host.Core.run core evs.length s = .next s' ∧
      Host.Core.run core (evs.filter PortEvent.legal).length u = .next u' ∧
      s'.crcState = u'.crcState ∧ s'.type = u'.type

/-- 42_control.md R76: NOPs anywhere among the events change no result. -/
def Obligations.NopsAnywhereChangeNoResult : Prop :=
  ∀ (s u : State) (evs : List PortEvent),
    s.pending = evs → u = { s with pending := evs.filter (fun e => e != .command 0#40) } →
    ∃ t, Host.Core.run core evs.length s = .next t ∧
      Host.Core.run core u.pending.length u = .next t

/-- 20_memory.md R40, 60_exceptions.md R90: instances share nothing. A step of one leaves every other as
it was, and steps of two instances commute. -/
def Obligations.InstancesShareNothing : Prop :=
  ∀ (blocks : List State) (j k : Nat), j ≠ k →
    ∃ afterJ afterK both, stepInstance j blocks = .next afterJ ∧
      stepInstance k blocks = .next afterK ∧ afterJ[k]? = blocks[k]? ∧ afterK[j]? = blocks[j]? ∧
      stepInstance k afterJ = .next both ∧ stepInstance j afterK = .next both

/-! ## Byte order, launch and assembly -/

/-- 20_memory.md R32 and 00_scope.md R8: `byte` and `cat` are inverse, first byte in bits [31:24]. -/
def Obligations.BytesOfAWordAreBigEndian : Prop :=
  (∀ (w : Word) (i : Fin 4), (byteOf w i).toNat = w.toNat / 2 ^ (24 - 8 * i.val) % 256) ∧
  (∀ w : Word, cat (byteOf w 0) (byteOf w 1) (byteOf w 2) (byteOf w 3) = w) ∧
  (∀ b0 b1 b2 b3 : Byte, wordBytes (cat b0 b1 b2 b3) = [b0, b1, b2, b3])

/-- 20_memory.md R35: the four wire bytes, most significant first, spell `CRC_OUT`. -/
def Obligations.CrcGoesOnTheWireMostSignificantFirst : Prop :=
  ∀ s : State, (crcWireBytes s).length = 4 ∧
    (crcWireBytes s).foldl (fun n b => 256 * n + b.toNat) 0 = (readPort .crcOut s).toNat

/-- 70_reset_and_hazards.md R92 and 93_implementation_defined.md I8: a launch state names all five
elements; the states I8 lists are refused, and from any other the run starts. Not every unreachable state
is on that list (`ERR` = 1 with `ERR_CAUSE` = 0 is not, and is admitted): that exactly I8's list is refused
is the model's reading (log 6). -/
def Obligations.LaunchRefusesExactlyTheStatesThatI8Lists : Prop :=
  ∀ (crcState type : Word) (err : BitVec 1) (errCause : BitVec 2) (errOp : Byte)
    (evs : List PortEvent),
    launch crcState type err errCause errOp evs =
      if errCause = 3#2 ∨ (err = 0#1 ∧ (errCause ≠ 0#2 ∨ errOp ≠ 0x00#8)) then
        .refused .unreachableLaunchState
      else .next (State.mk crcState type err errCause errOp evs)

/-- 30_encoding.md R50, R51: a statement assembles exactly if it is well formed; out of range is an error,
never truncated. -/
def Obligations.AssemblesExactlyTheWellFormedStatements : Prop :=
  ∀ st : AsmStmt, (assembleStmt st).isSome = st.wellFormed

/-- 30_encoding.md R50 and R51: the word each statement assembles to, as a number. -/
def Obligations.StatementsAssembleToTheirWords : Prop :=
  let word : AsmStmt → Nat → Prop := fun st n =>
    ∃ c : Cmd, assembleStmt st = some [c] ∧ c.toNat = n
  word .nop 0 ∧ word .crcInit (2 ^ 32) ∧
  (∀ n, n < 256 → word (.crcByte (.number n)) (2 * 2 ^ 32 + n)) ∧
  (∀ b : Byte, word (.crcByte (.char b)) (2 * 2 ^ 32 + b.toNat)) ∧
  (∀ n, n < 2 ^ 32 → word (.crcWord (.number n)) (3 * 2 ^ 32 + n)) ∧
  (∀ n, n < 2 ^ 32 → word (.typeLoad (.number n)) (4 * 2 ^ 32 + n)) ∧
  (∀ b0 b1 b2 b3 : Byte,
    let n := b0.toNat * 2 ^ 24 + b1.toNat * 2 ^ 16 + b2.toNat * 2 ^ 8 + b3.toNat
    word (.crcWord (.string [b0, b1, b2, b3])) (3 * 2 ^ 32 + n) ∧
    word (.typeLoad (.string [b0, b1, b2, b3])) (4 * 2 ^ 32 + n) ∧
    word (.typeCheck [b0, b1, b2, b3]) (4 * 2 ^ 32 + n)) ∧
  (∀ n, n < 2 ^ 40 → word (.cmd n) n)

/-- 30_encoding.md R52: the expansion of `crc.bytes` leaves the state that one `crc.byte` per byte leaves,
in a quarter of the commands. -/
def Obligations.BytesExpansionEqualsByteCommands : Prop :=
  ∀ (s : State) (m : List Byte) (rest : List PortEvent),
    (expandBytes m).length = m.length / 4 + m.length % 4 ∧
    ∃ t, Host.Core.run core (expandBytes m).length
        { s with pending := presented (expandBytes m) ++ rest } = .next t ∧
      Host.Core.run core m.length
        { s with pending := presented (m.map .crcByte) ++ rest } = .next t ∧
      t = { s with crcState := crcBytesUpdate s.crcState m, pending := rest }

/-- 41_crc.md R73, 30_encoding.md R52: after the words that `crc.chunk` assembles to, from any state,
`CRC_OUT` is the checksum of type and payload, nothing else of the state has changed, and the host's
comparison with the chunk's trailing word tells a mismatch. -/
def Obligations.ChunkExpansionLeavesTheChunkChecksum : Prop :=
  ∀ (s : State) (ty p : List Byte) (cs : List Cmd) (rest : List PortEvent),
    assembleStmt (.crcChunk ty p) = some cs → s.pending = cs.map .command ++ rest →
    ∃ t, Host.Core.run core cs.length s = .next t ∧ t.pending = rest ∧
      readPort .crcOut t = crc32 (ty ++ p) ∧
      t.type = s.type ∧ t.err = s.err ∧ t.errCause = s.errCause ∧ t.errOp = s.errOp ∧
      (∀ trailing : Word, checksumMismatchEvidence trailing t = true ↔ crc32 (ty ++ p) ≠ trailing)

/-- 30_encoding.md R50: `;` to the end of the line is a comment, after any line that can be read. -/
def Obligations.CommentsAreIgnored : Prop :=
  ∀ (line comment : List Char) (tokens : List AsmToken),
    lineTokens line = some tokens → lineTokens (line ++ ';' :: comment) = some tokens

/-- 30_encoding.md R50: mnemonics are case-insensitive. That `.cmd` and the pseudo-instructions, which this
covers too, are so as well is the model's choice (log 17). -/
def Obligations.MnemonicsAreCaseInsensitive : Prop :=
  ∀ cs cs' : List Char, cs.map Char.toLower = cs'.map Char.toLower →
    readMnemonic cs = readMnemonic cs'
end

