-- ==== Sys2Proof/Config.lean ====
section
/-! DEFINITION. What an implementation of the block fixes and the spec leaves open: one parameter,
`CMD_LATENCY` (00_scope.md R6). The CRC parameters are constants of the block, not configuration
(00_scope.md R2, 41_crc.md R65): see Machine/CrcFunction.lean. -/

namespace Sys2Proof.Config

/-- How much `CMD_LATENCY` exceeds its least value 1: any natural number, and no proof can see which
(log 7). -/
opaque cmdLatencyAboveLeast : Nat

/-- `CMD_LATENCY`: cycles from one command's acceptance to the next; a natural number at least 1 that
no rule of the model reads (00_scope.md R6, 70_reset_and_hazards.md R100). -/
def cmdLatency : Nat := cmdLatencyAboveLeast + 1

end Sys2Proof.Config
end

