-- ==== Sys2Proof/Laws/Config.lean ====
section
/-! SUPPORT. The one bound the spec sets on `CMD_LATENCY`. -/

namespace Sys2Proof.Config

theorem one_le_cmdLatency : 1 ≤ cmdLatency := Nat.le_add_left 1 _

end Sys2Proof.Config
end

