-- ==== Sys2Proof/Laws/Crc.lean ====
section
/-! SUPPORT. The CRC register over lists of bytes. -/

namespace Sys2Proof.Machine

@[simp] theorem crcBytesUpdate_nil (c : Word) : crcBytesUpdate c [] = c := rfl

@[simp] theorem crcBytesUpdate_cons (c : Word) (d : Byte) (m : List Byte) :
    crcBytesUpdate c (d :: m) = crcBytesUpdate (crcByteUpdate c d) m := rfl

theorem crcBytesUpdate_append (c : Word) (m m' : List Byte) :
    crcBytesUpdate c (m ++ m') = crcBytesUpdate (crcBytesUpdate c m) m' := by
  simp [crcBytesUpdate]

@[simp] theorem crcRegister_nil : crcRegister [] = 0xFFFFFFFF#32 := rfl

theorem crcRegister_append (m m' : List Byte) :
    crcRegister (m ++ m') = crcBytesUpdate (crcRegister m) m' :=
  crcBytesUpdate_append _ _ _

theorem crcWordUpdate_eq (c w : Word) :
    crcWordUpdate c w = crcBytesUpdate c (wordBytes w) := rfl

/-- The final XOR is its own inverse. -/
@[simp] theorem crcValue_crcValue (c : Word) : crcValue (crcValue c) = c := by
  simp [crcValue]

end Sys2Proof.Machine
end

