-- ==== Sys2Proof/Laws/Decode.lean ====
section
/-! SUPPORT. The fields of a command word built from its two fields. -/

namespace Sys2Proof

theorem command_getLsbD (op : Byte) (w : Word) (k : Nat) :
    (command op w).getLsbD k = if k < 32 then w.getLsbD k else op.getLsbD (k - 32) :=
  BitVec.getLsbD_append

@[simp] theorem opField_command (op : Byte) (w : Word) : opField (command op w) = op := by
  apply BitVec.eq_of_getLsbD_eq
  intro k hk
  simp [opField, command_getLsbD, hk]

@[simp] theorem operandField_command (op : Byte) (w : Word) :
    operandField (command op w) = w := by
  apply BitVec.eq_of_getLsbD_eq
  intro k hk
  simp [operandField, command_getLsbD, hk]

theorem d8Field_eq (c : Cmd) : d8Field c = (operandField c).setWidth 8 := by
  apply BitVec.eq_of_getLsbD_eq
  intro k hk
  have : k < 32 := by omega
  simp [d8Field, operandField, hk, this]

theorem rsv24Field_eq (c : Cmd) : rsv24Field c = (operandField c).extractLsb' 8 24 := by
  apply BitVec.eq_of_getLsbD_eq
  intro k hk
  simp [rsv24Field, operandField, hk]

/-- A word is the word of its two fields. -/
theorem command_fields (c : Cmd) : command (opField c) (operandField c) = c := by
  apply BitVec.eq_of_getLsbD_eq
  intro k hk
  rw [command_getLsbD]
  split
  · rename_i h
    simp [operandField, h]
  · have h8 : k - 32 < 8 := by omega
    have hk' : 32 + (k - 32) = k := by omega
    simp [opField, h8, hk']

theorem opField_toNat (c : Cmd) : (opField c).toNat = c.toNat / 4294967296 := by
  have h := c.isLt
  simp only [opField, BitVec.extractLsb'_toNat, Nat.shiftRight_eq_div_pow]
  omega

theorem operandField_toNat (c : Cmd) : (operandField c).toNat = c.toNat % 4294967296 := by
  simp [operandField, BitVec.extractLsb'_toNat]

end Sys2Proof
end

