-- ==== Sys2Proof/Laws/State.lean ====
section
/-! SUPPORT. One lemma per field per update of State, so that no proof unfolds a record update. -/

namespace Sys2Proof.Machine

section Updates

variable (s : State) (v : Word) (evs : List PortEvent)

@[simp] theorem State.setCrcState_crcState : (s.setCrcState v).crcState = v := rfl
@[simp] theorem State.setCrcState_type : (s.setCrcState v).type = s.type := rfl
@[simp] theorem State.setCrcState_err : (s.setCrcState v).err = s.err := rfl
@[simp] theorem State.setCrcState_errCause : (s.setCrcState v).errCause = s.errCause := rfl
@[simp] theorem State.setCrcState_errOp : (s.setCrcState v).errOp = s.errOp := rfl
@[simp] theorem State.setCrcState_pending : (s.setCrcState v).pending = s.pending := rfl

@[simp] theorem State.setType_crcState : (s.setType v).crcState = s.crcState := rfl
@[simp] theorem State.setType_type : (s.setType v).type = v := rfl
@[simp] theorem State.setType_err : (s.setType v).err = s.err := rfl
@[simp] theorem State.setType_errCause : (s.setType v).errCause = s.errCause := rfl
@[simp] theorem State.setType_errOp : (s.setType v).errOp = s.errOp := rfl
@[simp] theorem State.setType_pending : (s.setType v).pending = s.pending := rfl

@[simp] theorem State.setPending_crcState : (s.setPending evs).crcState = s.crcState := rfl
@[simp] theorem State.setPending_type : (s.setPending evs).type = s.type := rfl
@[simp] theorem State.setPending_err : (s.setPending evs).err = s.err := rfl
@[simp] theorem State.setPending_errCause : (s.setPending evs).errCause = s.errCause := rfl
@[simp] theorem State.setPending_errOp : (s.setPending evs).errOp = s.errOp := rfl
@[simp] theorem State.setPending_pending : (s.setPending evs).pending = evs := rfl

@[simp] theorem resetBlock_crcState : (resetBlock s).crcState = 0xFFFFFFFF#32 := rfl
@[simp] theorem resetBlock_type : (resetBlock s).type = 0#32 := rfl
@[simp] theorem resetBlock_err : (resetBlock s).err = 0#1 := rfl
@[simp] theorem resetBlock_errCause : (resetBlock s).errCause = 0#2 := rfl
@[simp] theorem resetBlock_errOp : (resetBlock s).errOp = 0#8 := rfl
@[simp] theorem resetBlock_pending : (resetBlock s).pending = s.pending := rfl

end Updates

section Capture

variable (cause : IllegalCause) (op : Byte) (s : State)

@[simp] theorem raiseIllegalCommand_crcState :
    (raiseIllegalCommand cause op s).crcState = s.crcState := by
  unfold raiseIllegalCommand; split <;> rfl

@[simp] theorem raiseIllegalCommand_type :
    (raiseIllegalCommand cause op s).type = s.type := by
  unfold raiseIllegalCommand; split <;> rfl

@[simp] theorem raiseIllegalCommand_pending :
    (raiseIllegalCommand cause op s).pending = s.pending := by
  unfold raiseIllegalCommand; split <;> rfl

/-- After the capture `ERR` is 1: set now or set before. -/
@[simp] theorem raiseIllegalCommand_err : (raiseIllegalCommand cause op s).err = 1#1 := by
  unfold raiseIllegalCommand
  split
  · rfl
  · rename_i h
    exact (BitVec.eq_zero_or_eq_one s.err).resolve_left h

@[simp] theorem raiseIllegalCommand_errCause :
    (raiseIllegalCommand cause op s).errCause = if s.err = 0#1 then cause.code else s.errCause := by
  unfold raiseIllegalCommand; split <;> rfl

@[simp] theorem raiseIllegalCommand_errOp :
    (raiseIllegalCommand cause op s).errOp = if s.err = 0#1 then op else s.errOp := by
  unfold raiseIllegalCommand; split <;> rfl

/-- A command captured while `ERR` = 1 changes nothing at all. -/
theorem raiseIllegalCommand_of_err (h : s.err = 1#1) : raiseIllegalCommand cause op s = s := by
  simp [raiseIllegalCommand, h]

end Capture

end Sys2Proof.Machine
end

