-- ==== Sys2Proof/Laws/Exec.lean ====
section
/-! SUPPORT. One lemma per command: the one state it answers. -/

namespace Sys2Proof.Machine

@[simp] theorem execNop_eq (s : State) : execNop s = .next s := rfl

@[simp] theorem execCrcInit_eq (s : State) : execCrcInit s = .next (s.setCrcState crcInitial) := rfl

@[simp] theorem execCrcByte_eq (d8 : Byte) (s : State) :
    execCrcByte d8 s = .next (s.setCrcState (crcByteUpdate s.crcState d8)) := rfl

@[simp] theorem execCrcWord_eq (w : Word) (s : State) :
    execCrcWord w s = .next (s.setCrcState (crcBytesUpdate s.crcState (wordBytes w))) := rfl

@[simp] theorem execTypeLoad_eq (w : Word) (s : State) :
    execTypeLoad w s = .next (s.setType w) := rfl

@[simp] theorem execIllegal_eq (cause : IllegalCause) (c : Cmd) (s : State) :
    execIllegal cause c s = .next (raiseIllegalCommand cause (opField c) s) := rfl

/-- What the acceptance of a command word can do: nothing, a write of one unit, or a capture. -/
theorem acceptCommand_cases (c : Cmd) (s : State) :
    (decode c = .legal .nop ∧ acceptCommand c s = .next s) ∨
    (decode c = .legal .crcInit ∧ acceptCommand c s = .next (s.setCrcState crcInitial)) ∨
    (∃ d8, decode c = .legal (.crcByte d8) ∧
      acceptCommand c s = .next (s.setCrcState (crcByteUpdate s.crcState d8))) ∨
    (∃ w, decode c = .legal (.crcWord w) ∧
      acceptCommand c s = .next (s.setCrcState (crcBytesUpdate s.crcState (wordBytes w)))) ∨
    (∃ w, decode c = .legal (.typeLoad w) ∧ acceptCommand c s = .next (s.setType w)) ∨
    (∃ cause, decode c = .illegal cause ∧
      acceptCommand c s = .next (raiseIllegalCommand cause (opField c) s)) := by
  cases h : decode c with
  | illegal cause => simp [acceptCommand, h]
  | legal i => cases i <;> simp [acceptCommand, exec, h]

end Sys2Proof.Machine
end

