-- ==== Sys2Proof/Laws/Operands.lean ====
section
/-! SUPPORT. Bits of the byte and word primitives. -/

namespace Sys2Proof.Machine

theorem byteOf_getLsbD (w : Word) (i : Fin 4) (k : Nat) :
    (byteOf w i).getLsbD k = (decide (k < 8) && w.getLsbD (24 - 8 * i.val + k)) := by
  simp [byteOf]

theorem byteOf_toNat (w : Word) (i : Fin 4) :
    (byteOf w i).toNat = w.toNat / 2 ^ (24 - 8 * i.val) % 256 := by
  simp [byteOf, BitVec.extractLsb'_toNat, Nat.shiftRight_eq_div_pow]

@[simp] theorem wordBytes_length (w : Word) : (wordBytes w).length = 4 := rfl

@[simp] theorem zext32_toNat (d : Byte) : (zext32 d).toNat = d.toNat := by
  have h := d.isLt
  simp only [zext32, BitVec.toNat_setWidth]
  omega

/-- A flag word has its flag at its own bit and 0 elsewhere. -/
theorem bitAt_getLsbD (k : Nat) (b : Bool) (j : Nat) :
    (bitAt k b).getLsbD j = (decide (j < 32) && decide (j = k) && b) := by
  by_cases hj : j < 32 <;> by_cases hk : j < k <;> simp [bitAt, hj, hk]
  · intro h
    omega
  · have : (j - k = 0) ↔ (j = k) := by omega
    cases b <;> simp [this]

/-- The type-code flags read bit 5 of a byte, a bit of `TYPE`. -/
theorem bit5_eq (type : Word) (i : Fin 4) :
    bit5 type i = type.getLsbD (29 - 8 * i.val) := by
  have h : 24 - 8 * i.val + 5 = 29 - 8 * i.val := by omega
  rw [bit5, byteOf_getLsbD, h]
  simp

end Sys2Proof.Machine
end

