-- ==== Sys2Proof/Laws/PerInstr.lean ====
section
/-! SUPPORT. Statements made instruction by instruction, one lemma per constructor. -/

namespace Sys2Proof.Laws

namespace EncodedOpcode

/-- The opcode field of the encoded command is the one the opcode map assigns (30_encoding.md R45). -/
def Statement : Instr → Prop
  | .nop => opField (encode .nop) = 0x00#8
  | .crcInit => opField (encode .crcInit) = 0x01#8
  | .crcByte d8 => opField (encode (.crcByte d8)) = 0x02#8
  | .crcWord w => opField (encode (.crcWord w)) = 0x03#8
  | .typeLoad w => opField (encode (.typeLoad w)) = 0x04#8

theorem nop : Statement .nop := opField_command _ _
theorem crcInit : Statement .crcInit := opField_command _ _
theorem crcByte (d8 : Byte) : Statement (.crcByte d8) := opField_command _ _
theorem crcWord (w : Word) : Statement (.crcWord w) := opField_command _ _
theorem typeLoad (w : Word) : Statement (.typeLoad w) := opField_command _ _

end EncodedOpcode

end Sys2Proof.Laws
end

