-- ==== Sys2Proof/Laws/Step.lean ====
section
/-! SUPPORT. What a step can do, and the one induction over a run: a relation that every event keeps
holds after any sequence of events. -/

namespace Sys2Proof.Machine

/-- The step with an event presented: that event, on the state without it. -/
theorem step_of_pending {s : State} {e : PortEvent} {rest : List PortEvent}
    (h : s.pending = e :: rest) : step s = acceptEvent e (s.setPending rest) := by
  simp [step, nextEvent, h]

/-- Everything a step can do. -/
theorem step_cases (s : State) :
    (s.pending = [] ∧ step s = waitForCommand s) ∨
    (∃ rest, s.pending = .reset :: rest ∧ step s = .next (resetBlock (s.setPending rest))) ∨
    (∃ c rest, s.pending = .command c :: rest ∧
      step s = acceptCommand c (s.setPending rest)) := by
  match h : s.pending with
  | [] => exact .inl ⟨rfl, by simp [step, nextEvent, h]⟩
  | .reset :: rest => exact .inr (.inl ⟨rest, rfl, step_of_pending h⟩)
  | .command c :: rest => exact .inr (.inr ⟨c, rest, rfl, step_of_pending h⟩)

/-- The acceptance of an event answers a next state and leaves what is still to be presented. -/
theorem acceptEvent_next (e : PortEvent) (s : State) :
    ∃ t, acceptEvent e s = .next t ∧ t.pending = s.pending := by
  cases e with
  | reset => exact ⟨_, rfl, rfl⟩
  | command c =>
    obtain ⟨-, h⟩ | ⟨-, h⟩ | ⟨_, -, h⟩ | ⟨_, -, h⟩ | ⟨_, -, h⟩ | ⟨_, -, h⟩ := acceptCommand_cases c s
    all_goals exact ⟨_, h, by simp⟩

/-- One more step of a run. -/
theorem run_succ {s t : State} (n : Nat) (h : step s = .next t) :
    Host.Core.run core (n + 1) s = Host.Core.run core n t := by
  have h' : core.step s = .next t := h
  simp only [Host.Core.run, h']

/-- The induction over a run, once: a relation `P` between the state and an account `b` of the events,
that does not look at `pending` and that every event keeps, holds after the events presented. -/
theorem run_keeps {β : Type} {P : State → β → Prop} {f : β → PortEvent → β}
    (hpending : ∀ s b evs, P s b → P (s.setPending evs) b)
    (hevent : ∀ s b e t, P s b → acceptEvent e s = .next t → P t (f b e))
    (evs rest : List PortEvent) (s : State) (b : β)
    (hs : s.pending = evs ++ rest) (hP : P s b) :
    ∃ t, Host.Core.run core evs.length s = .next t ∧ t.pending = rest ∧ P t (evs.foldl f b) := by
  induction evs generalizing s b with
  | nil => exact ⟨s, rfl, hs, hP⟩
  | cons e evs ih =>
    obtain ⟨t, ht, htp⟩ := acceptEvent_next e (s.setPending (evs ++ rest))
    have hstep : step s = .next t := (step_of_pending hs).trans ht
    obtain ⟨u, hu, hup, huP⟩ :=
      ih t (f b e) htp (hevent _ _ _ _ (hpending _ _ _ hP) ht)
    exact ⟨u, (run_succ _ hstep).trans hu, hup, huP⟩

end Sys2Proof.Machine
end

