-- ==== Sys2Proof/Tests/Slice0.lean ====
section
/-! SUPPORT. Tests. Every expected value is the spec's: 30_encoding.md R45 for words written out from the
encoding, 95_test_vectors.md for results, the rules' own examples elsewhere. The witnesses at the end meet
the hypotheses of the statements. -/

namespace Sys2Proof.Tests

open Sys2Proof Sys2Proof.Machine

/-- The next state, if the answer is one. -/
def answered (o : Host.Outcome State Fault Refusal) : Option State :=
  match o with
  | .next s => some s
  | .fault _ => none
  | .refused _ => none

/-- The reset state with these events presented. -/
def presenting (evs : List PortEvent) : State := State.reset.setPending evs

/-- A state no run from reset starts with: other data, and a capture. -/
def captured : State where
  crcState := 0x12345678#32
  type := 0x72755374#32
  err := 1#1
  errCause := 2#2
  errOp := 0x02#8
  pending := []

/-! ## Decoding (30_encoding.md R45: OP in bits 39:32, W in bits 31:0) -/

theorem test_decode_nop :
    decode 0b00000000_00000000_00000000_00000000_00000000#40 = .legal .nop := by decide

theorem test_decode_crcInit :
    decode 0b00000001_00000000_00000000_00000000_00000000#40 = .legal .crcInit := by decide

theorem test_decode_crcByte :
    decode 0b00000010_00000000_00000000_00000000_01001001#40 = .legal (.crcByte 0x49#8) := by
  decide

theorem test_decode_crcWord :
    decode 0b00000011_01001001_01000101_01001110_01000100#40 =
      .legal (.crcWord 0x49454E44#32) := by decide

theorem test_decode_typeLoad :
    decode 0b00000100_01010010_01110101_01010011_01110100#40 =
      .legal (.typeLoad 0x52755374#32) := by decide

/-- 95_test_vectors.md section 4: cause 2. -/
theorem test_decode_reserved :
    decode 0x0000000001#40 = .illegal .reservedBits ∧
    decode 0x0180000000#40 = .illegal .reservedBits ∧
    decode 0x0200000100#40 = .illegal .reservedBits ∧
    decode 0x0280000000#40 = .illegal .reservedBits := by decide

/-- 95_test_vectors.md section 4: cause 1, opcode before operand. -/
theorem test_decode_unassigned :
    decode 0x0500000000#40 = .illegal .unassignedOpcode ∧
    decode 0x80000000FF#40 = .illegal .unassignedOpcode ∧
    decode 0xFFFFFFFFFF#40 = .illegal .unassignedOpcode := by decide

theorem test_decodeTableWord :
    decodeTableWord 40 0x0349454E44 = some (.crcWord 0x49454E44#32) ∧
    decodeTableWord 40 0x0500000000 = none := by decide

theorem test_withFetchWord :
    (answered (step (State.reset.withFetchWord 40 0x0452755374))).map (·.type) =
      some 0x52755374#32 := by decide

/-! ## Well-formedness: each check refuses an ill-formed statement (30_encoding.md R50, R51, R52) -/

theorem test_illformed_byte_number : (AsmStmt.crcByte (.number 256)).wellFormed = false := by decide
theorem test_illformed_byte_string :
    (AsmStmt.crcByte (.string [0x49#8])).wellFormed = false := by decide
theorem test_illformed_word_number :
    (AsmStmt.crcWord (.number 4294967296)).wellFormed = false := by decide
theorem test_illformed_word_char : (AsmStmt.crcWord (.char 0x49#8)).wellFormed = false := by decide
theorem test_illformed_word_string :
    (AsmStmt.typeLoad (.string [0x49#8, 0x45#8, 0x4E#8])).wellFormed = false := by decide
theorem test_illformed_cmd : (AsmStmt.cmd 1099511627776).wellFormed = false := by decide
theorem test_illformed_chunk_type :
    (AsmStmt.crcChunk [0x49#8] []).wellFormed = false := by decide
theorem test_illformed_check_type :
    (AsmStmt.typeCheck [0x49#8, 0x45#8, 0x4E#8, 0x44#8, 0x44#8]).wellFormed = false := by decide

/-! ## Commands -/

/-- 95_test_vectors.md P5: a NOP changes nothing. -/
theorem test_nop : answered (exec .nop captured) = some captured := by decide

/-- R69: from any state. -/
theorem test_crcInit :
    (answered (exec .crcInit captured)).map (·.crcState) = some 0xFFFFFFFF#32 := by decide

/-- 95_test_vectors.md 2.1: an arbitrary state. -/
theorem test_crcByte_arbitrary :
    (answered (exec (.crcByte 0x9A#8) captured)).map (·.crcState) = some 0x4E16B702#32 := by decide

/-- 95_test_vectors.md 2.1: the first byte 0xFF after init. -/
theorem test_crcByte_ones :
    (answered (exec (.crcByte 0xFF#8) State.reset)).map (·.crcState) = some 0x00FFFFFF#32 := by
  decide

/-- 95_test_vectors.md P1: "IEND", byte order. -/
theorem test_crcWord :
    (answered (exec (.crcWord 0x49454E44#32) State.reset)).map (readPort .crcOut) =
      some 0xAE426082#32 := by decide +kernel

/-- 95_test_vectors.md 2.3. -/
theorem test_crcWord_ones :
    (answered (exec (.crcWord 0xFFFFFFFF#32) State.reset)).map (·.crcState) = some 0#32 := by
  decide +kernel

/-- R54: "RuSt"; the capture and `CRC_STATE` stay. -/
theorem test_typeLoad :
    (answered (exec (.typeLoad 0x52755374#32) captured)).map (fun s => (readPorts s)) =
      some [0x12345678#32, 0xEDCBA987#32, 0x52755374#32, 0x000003BF#32, 0x00000205#32] := by decide

/-- R77's example: `.cmd 0x02_00000149` from reset. -/
theorem test_illegal_capture :
    (answered (step (presenting [.command 0x0200000149#40]))).map
      (fun s => (s.crcState, readPort .status s)) = some (0xFFFFFFFF#32, 0x00000205#32) := by decide

/-- R86: a second illegal command changes nothing. -/
theorem test_illegal_second :
    answered (step (captured.setPending [.command 0x7F00000000#40])) = some captured := by decide

/-- 95_test_vectors.md section 5: reset from a captured state, then the ports. -/
theorem test_reset_ports :
    (answered (step (captured.setPending [.reset]))).map readPorts =
      some [0xFFFFFFFF#32, 0x00000000#32, 0x00000000#32, 0x000000E0#32, 0x00000000#32] := by decide

/-! ## CRC function and flags -/

/-- 95_test_vectors.md 2.2: "IHDRabc". -/
theorem test_crc32 :
    crc32 [0x49#8, 0x48#8, 0x44#8, 0x52#8, 0x61#8, 0x62#8, 0x63#8] = 0xA9E6C6A5#32 := by
  decide +kernel

/-- 95_test_vectors.md 2.1, by the table. -/
theorem test_crc_table :
    crcByteUpdateByTable 0x12345678#32 0x9A#8 = 0x4E16B702#32 ∧
    crcTableEntry 0xFF#8 = 0x2D02EF8D#32 := by decide

/-- 95_test_vectors.md 3.1: the neighbours of the ranges. -/
theorem test_alpha :
    [0x40#8, 0x41#8, 0x5A#8, 0x5B#8, 0x60#8, 0x61#8, 0x7A#8, 0x7B#8, 0xC1#8].map alpha =
      [false, true, true, false, false, true, true, false, false] := by decide

/-- 95_test_vectors.md 3.2: "Rust", "IHDR", "ru1t", "bLOb", "@[`{", all ones. -/
theorem test_tflags :
    [0x52757374#32, 0x49484452#32, 0x72753174#32, 0x624C4F62#32, 0x405B607B#32, 0xFFFFFFFF#32].map
      tflags =
    [0x0000013F#32, 0x000002FF#32, 0x0000010B#32, 0x000003DF#32, 0x00000160#32, 0x00000100#32] := by
  decide

/-- 20_memory.md R35: AE 42 60 82. -/
theorem test_wire :
    crcWireBytes (State.reset.setCrcState 0x51BD9F7D#32) = [0xAE#8, 0x42#8, 0x60#8, 0x82#8] := by
  decide

/-! ## Assembly -/

/-- 95_test_vectors.md P2 and P3 as text, with a comment and a capital mnemonic (R50, R51, R52). -/
theorem test_assemble_chunk :
    assembleText "crc.chunk \"ruSt\", \"hello\" ; P2".toList =
      some [0x0100000000#40, 0x0372755374#40, 0x0368656C6C#40, 0x020000006F#40] := by decide

theorem test_assemble_lines :
    assembleText "CRC.Byte 'I'\n.cmd 0x02_00000148\n; nothing\ncrc.word \"DR\\x61b\"".toList =
      some [0x0200000049#40, 0x0200000148#40, 0x0344526162#40] := by decide

theorem test_assemble_error : assembleText "crc.byte 256".toList = none := by decide

/-! ## Launch (93_implementation_defined.md I8) -/

theorem test_launch_refused :
    answered (launch 0#32 0#32 0#1 1#2 0x05#8 []) = none ∧
    answered (launch 0#32 0#32 1#1 3#2 0x05#8 []) = none := by decide

theorem test_launch_admitted :
    answered (launch 0x12345678#32 0x72755374#32 1#1 2#2 0x02#8 []) = some captured := by decide

/-! ## Witnesses: states and operands that meet a statement's hypotheses -/

theorem witness_ResetStepWritesEveryElement :
    (captured.setPending [.reset, .command 0#40]).pending = .reset :: [.command 0#40] := rfl

theorem witness_PortsReadTheirResetValuesAfterReset :
    (captured.setPending [.reset]).pending = .reset :: [] := rfl

theorem witness_StatusPortHoldsTheCaptureFields :
    3 ≤ 3 ∧ 3 ≤ 7 ∧ 7 ≤ 7 ∧ 16 ≤ 16 ∧ 16 ≤ 31 := by decide

theorem witness_StepRunsTheDecodedCommand :
    (presenting [.command 0x0200000049#40]).pending = .command 0x0200000049#40 :: [] ∧
    decode 0x0200000049#40 = .legal (.crcByte 0x49#8) := by decide

theorem witness_IllegalCommandIsCapturedIfFirst :
    (captured.setPending [.command 0x0500000000#40]).pending = .command 0x0500000000#40 :: [] ∧
    decode 0x0500000000#40 = .illegal .unassignedOpcode ∧ captured.err = 1#1 ∧
    (presenting [.command 0x02FFFFFF00#40]).pending = .command 0x02FFFFFF00#40 :: [] ∧
    decode 0x02FFFFFF00#40 = .illegal .reservedBits ∧ State.reset.err = 0#1 := by decide

theorem witness_BlockWaitsWhileNothingIsPresented : State.reset.pending = [] := rfl

/-- One word at the edge of each clause's range: the two fields of each, as the clauses read them. -/
theorem witness_DecoderFollowsTheOpcodeMap :
    [0x0000000000#40, 0x0000000001#40, 0x0100000000#40, 0x01FFFFFFFF#40, 0x02000000FF#40,
      0x0200000100#40, 0x03FFFFFFFF#40, 0x0400000000#40, 0x0500000000#40, 0xFFFFFFFFFF#40].map
      (fun c : Cmd => (c.toNat / 2 ^ 32, decide (c.toNat % 2 ^ 32 = 0), c.toNat % 2 ^ 32 / 2 ^ 8)) =
    [(0, true, 0), (0, false, 0), (1, true, 0), (1, false, 0xFFFFFF), (2, false, 0), (2, false, 1),
      (3, false, 0xFFFFFF), (4, true, 0), (5, true, 0), (255, false, 0xFFFFFF)] := by decide

/-- With `witness_DecoderFollowsTheOpcodeMap`'s words, one for each of the three clauses. -/
theorem witness_CauseFollowsFromOpcodeAndReservedBits :
    (presenting [.command 0x0500000000#40]).pending = .command 0x0500000000#40 :: [] ∧
    (presenting [.command 0x0000000001#40]).pending = .command 0x0000000001#40 :: [] ∧
    (presenting [.command 0x0200000100#40]).pending = .command 0x0200000100#40 :: [] ∧
    (presenting [.command 0x04FFFFFFFF#40]).pending = .command 0x04FFFFFFFF#40 :: [] ∧
    State.reset.err = 0#1 ∧ 5 ≤ (0x0500000000#40 : Cmd).toNat / 2 ^ 32 ∧
    (0x0000000001#40 : Cmd).toNat % 2 ^ 32 ≠ 0 ∧
    (0x0200000100#40 : Cmd).toNat % 2 ^ 32 / 2 ^ 8 ≠ 0 ∧
    (0x04FFFFFFFF#40 : Cmd).toNat / 2 ^ 32 = 4 := by decide

theorem witness_SingleBitErrorChangesTheCrc :
    1 < [0x00#8, 0xFF#8].length ∧ 7 < 8 ∧
    (State.reset.setCrcState (crcRegister [0x00#8, 0xFF#8])).crcState = crcRegister [0x00#8, 0xFF#8] ∧
    [0x00#8, 0xFF#8].modify 1 (fun d => d ^^^ (1#8 <<< 7)) = [0x00#8, 0x7F#8] := by
  exact ⟨by decide, by decide, State.setCrcState_crcState _ _, by decide⟩

theorem witness_RunLeavesTheCrcOfTheAccumulatedBytes :
    (presenting [.command 0x0349454E44#40, .reset]).pending =
      [.command 0x0349454E44#40] ++ [.reset] ∧
    State.reset.crcState = crcRegister [] := by decide

theorem witness_TypePortReturnsTheWordLastLoaded :
    (presenting [.command 0x0452755374#40, .reset]).pending =
      [.command 0x0452755374#40] ++ [.reset] := rfl

theorem witness_OnlyTypeLoadAndResetChangeTflags :
    (answered (step (presenting [.command 0x0452755374#40]))).map
      (fun t => (readPort .tflags t, readPort .tflags (presenting [.command 0x0452755374#40]))) =
      some (0x000003BF#32, 0x000000E0#32) ∧
    (answered (step (captured.setPending [.reset]))).map
      (fun t => (readPort .tflags t, readPort .tflags captured)) =
      some (0x000000E0#32, 0x0000039F#32) := by decide

theorem witness_LoadedNonLetterShowsAsInvalidByte :
    (presenting [.command (encode (.typeLoad 0x72753174#32))]).pending =
      .command (encode (.typeLoad 0x72753174#32)) :: [] := rfl

theorem witness_EveryStepKeepsTheCaptureInvariant :
    captured.captureWf = true ∧ (presenting [.command 0x0500000000#40]).captureWf = true ∧
    (answered (step (presenting [.command 0x0500000000#40]))).isSome = true := by decide

theorem witness_CaptureRecordsTheFirstIllegalCommandSinceReset :
    (captured.setPending [.reset, .command 0x0500000000#40]).pending =
      [.reset, .command 0x0500000000#40] ++ [] ∧
    captured.captured (some (.reservedBits, 0x02#8)) = true ∧
    State.reset.captured none = true := by decide

theorem witness_OnlyIllegalCommandSetsErrAndOnlyResetClearsIt :
    (answered (step (presenting [.command 0x0500000000#40]))).map (·.err) = some 1#1 ∧
    (presenting [.command 0x0500000000#40]).err = 0#1 ∧
    (answered (step (captured.setPending [.reset]))).map (·.err) = some 0#1 ∧
    captured.err = 1#1 := by decide

theorem witness_CaptureStaysUntilResetWhileCommandsGoOn :
    (captured.setPending [.command 0x0500000000#40, .reset]).pending =
      [.command 0x0500000000#40] ++ [.reset] ∧
    captured.err = 1#1 ∧ PortEvent.reset ∉ [PortEvent.command 0x0500000000#40] := by decide

theorem witness_CommandsWriteOnlyTheirOwnUnit :
    (answered (exec (.typeLoad 0x52755374#32) captured)).isSome = true := by decide

theorem witness_UnitsNeverLearnFromEachOther :
    (presenting [.command 0x0349454E44#40]).pending = [.command 0x0349454E44#40] ++ [] ∧
    (captured.setPending [.command 0x0349454E44#40]).pending =
      [.command 0x0349454E44#40] ++ [] ∧
    (captured.setType 0#32).crcState = captured.crcState ∧
    (captured.setCrcState 0#32).type = captured.type := by decide

theorem witness_IllegalCommandsDoNotDisturbTheData :
    [.command 0x0200000148#40, .command 0x0200000048#40].filter PortEvent.legal =
      [.command 0x0200000048#40] ∧
    (presenting [.command 0x0200000048#40]).pending = [.command 0x0200000048#40] ∧
    (presenting []).crcState = State.reset.crcState ∧ (presenting []).type = State.reset.type := by
  decide

theorem witness_NopsAnywhereChangeNoResult :
    presenting [.command 0x0100000000#40] =
      { presenting [.command 0#40, .command 0x0100000000#40] with
        pending := [PortEvent.command 0#40, .command 0x0100000000#40].filter
          (fun e => e != .command 0#40) } := by decide

theorem witness_InstancesShareNothing : (0 : Nat) ≠ 1 := by decide

theorem witness_StatementsAssembleToTheirWords :
    255 < 256 ∧ 4294967295 < 2 ^ 32 ∧ 1099511627775 < 2 ^ 40 := by decide

theorem witness_ChunkExpansionLeavesTheChunkChecksum :
    assembleStmt (.crcChunk [0x49#8, 0x45#8, 0x4E#8, 0x44#8] []) =
      some [0x0100000000#40, 0x0349454E44#40] ∧
    (captured.setPending [.command 0x0100000000#40, .command 0x0349454E44#40]).pending =
      [0x0100000000#40, 0x0349454E44#40].map PortEvent.command ++ [] := by decide

theorem witness_CommentsAreIgnored :
    lineTokens "crc.byte 73".toList =
      some [.word "crc.byte".toList, .word "73".toList] := by decide

theorem witness_MnemonicsAreCaseInsensitive :
    "CRC.init".toList.map Char.toLower = "crc.INIT".toList.map Char.toLower ∧
    readMnemonic "CRC.init".toList = some .crcInit := by decide

end Sys2Proof.Tests
end

section
/-! Proofs for the scope family (00_scope.md): the byte order of a word, and the step as a total function.
The byte primitives are read as numbers in base 256, so that both inverse laws are arithmetic. -/

namespace Sys2Proof.Machine

/-- Appending a byte is a step up in base 256. -/
theorem append_byte_toNat {n : Nat} (x : BitVec n) (b : Byte) :
    (x ++ b).toNat = 2 ^ 8 * x.toNat + b.toNat := by
  rw [BitVec.toNat_append, ← Nat.shiftLeft_add_eq_or_of_lt b.isLt, Nat.shiftLeft_eq, Nat.mul_comm]

/-- 00_scope.md R8, 20_memory.md R32: the bytes of `cat` are the digits of its number in base 256, `b0` on
top. -/
theorem cat_toNat (b0 b1 b2 b3 : Byte) :
    (cat b0 b1 b2 b3).toNat =
      2 ^ 24 * b0.toNat + 2 ^ 16 * b1.toNat + 2 ^ 8 * b2.toNat + b3.toNat := by
  simp only [cat, append_byte_toNat]
  omega

@[simp] theorem cat_byteOf (w : Word) :
    cat (byteOf w 0) (byteOf w 1) (byteOf w 2) (byteOf w 3) = w := by
  apply BitVec.eq_of_toNat_eq
  have hw := w.isLt
  simp only [cat_toNat, byteOf_toNat, Fin.isValue, Fin.coe_ofNat_eq_mod, Nat.reduceMod,
    Nat.reduceMul, Nat.reduceSub, Nat.reducePow]
  omega

/-- The byte at each place of a word put together by `cat`. -/
theorem byteOf_cat (b0 b1 b2 b3 : Byte) (i : Fin 4) :
    byteOf (cat b0 b1 b2 b3) i = [b0, b1, b2, b3].get i := by
  apply BitVec.eq_of_toNat_eq
  rw [byteOf_toNat, cat_toNat]
  have h0 := b0.isLt
  have h1 := b1.isLt
  have h2 := b2.isLt
  have h3 := b3.isLt
  fin_cases i <;> simp <;> omega

@[simp] theorem wordBytes_cat (b0 b1 b2 b3 : Byte) :
    wordBytes (cat b0 b1 b2 b3) = [b0, b1, b2, b3] := by
  simp [wordBytes, byteOf_cat]

/-- Settles O42: the clause on one byte as a number, and the two inverse laws. -/
theorem bytesOfAWordAreBigEndian : Obligations.BytesOfAWordAreBigEndian :=
  ⟨byteOf_toNat, cat_byteOf, wordBytes_cat⟩

/-- 30_encoding.md R46: the acceptance of a legal word is the decoded command. -/
theorem acceptCommand_of_legal {c : Cmd} {i : Instr} (h : decode c = .legal i) (s : State) :
    acceptCommand c s = exec i s := by
  rw [acceptCommand, h]

/-- Settles O10: the step takes the word off, and the word's acceptance is `exec` of its command. -/
theorem stepRunsTheDecodedCommand : Obligations.StepRunsTheDecodedCommand := by
  intro s c rest i hpending hdecode
  calc step s
      = acceptEvent (.command c) (s.setPending rest) := step_of_pending hpending
    _ = exec i (s.setPending rest) := acceptCommand_of_legal hdecode _

/-- The step with nothing presented (70_reset_and_hazards.md R94; log 2). -/
theorem step_of_pending_nil {s : State} (h : s.pending = []) : step s = .next s := by
  simp [step, nextEvent, waitForCommand, h]

/-- Settles O13: a step with nothing presented answers the state itself, and every event answers a next
state that keeps the events behind it. -/
theorem everyStepAnswersANextState : Obligations.EveryStepAnswersANextState := by
  intro s
  match hpending : s.pending with
  | [] => exact ⟨s, step_of_pending_nil hpending, hpending⟩
  | e :: rest =>
    obtain ⟨t, haccept, hrest⟩ := acceptEvent_next e (s.setPending rest)
    exact ⟨t, (step_of_pending hpending).trans haccept, hrest⟩

end Sys2Proof.Machine
end

section
/-! Proofs for the state family (10_state.md): the block as three units that run side by side. An event's
effect on `CRC_STATE`, on `TYPE` and on the capture is a function of the event and of that unit alone, so a
run folds each unit's function over the events. -/

namespace Sys2Proof.Machine

/-! ## The ports as numbers and bits -/

/-- 10_state.md R21: the XOR with all ones is the complement. -/
theorem crcValue_eq_not (c : Word) : crcValue c = ~~~c := BitVec.xor_allOnes

/-- Settles O3: the complement of a 32-bit word is its difference from `0xFFFFFFFF`. -/
theorem crcPortsReadRegisterAndItsFinalXor : Obligations.CrcPortsReadRegisterAndItsFinalXor := by
  refine ⟨fun s => ⟨rfl, ?_⟩, rfl, rfl⟩
  rw [readPort, crcValue_eq_not, BitVec.toNat_not]

/-- 10_state.md R24: the three fields do not overlap, so the port is their sum. -/
theorem statusWord_toNat (err : BitVec 1) (errCause : BitVec 2) (errOp : Byte) :
    (statusWord err errCause errOp).toNat =
      err.toNat + 2 * errCause.toNat + 256 * errOp.toNat := by
  have herr := err.isLt
  have hcause := errCause.isLt
  have hop := errOp.isLt
  have hlow : errCause.toNat <<< 1 ||| err.toNat = 2 * errCause.toNat + err.toNat := by
    rw [← Nat.shiftLeft_add_eq_or_of_lt herr, Nat.shiftLeft_eq, Nat.mul_comm]
  have hall : errOp.toNat <<< 8 ||| (2 * errCause.toNat + err.toNat) =
      256 * errOp.toNat + (2 * errCause.toNat + err.toNat) := by
    rw [← Nat.shiftLeft_add_eq_or_of_lt (by omega), Nat.shiftLeft_eq, Nat.mul_comm]
  have hfields : (statusWord err errCause errOp).toNat =
      errOp.toNat <<< 8 ||| (errCause.toNat <<< 1 ||| err.toNat) := by
    simp only [statusWord, BitVec.toNat_or, BitVec.toNat_shiftLeft, BitVec.toNat_setWidth,
      Nat.shiftLeft_eq, Nat.or_assoc]
    congr 2 <;> omega
  rw [hfields, hlow, hall]
  omega

/-- Settles O4: the sum is below 2^16, and its remainder by 256 is below 8. -/
theorem statusPortHoldsTheCaptureFields : Obligations.StatusPortHoldsTheCaptureFields := by
  refine ⟨fun s => ?_, rfl⟩
  have hsum := statusWord_toNat s.err s.errCause s.errOp
  have herr := s.err.isLt
  have hcause := s.errCause.isLt
  have hop := s.errOp.isLt
  refine ⟨hsum, fun k hlow hhigh => ?_, fun k hk => ?_⟩
  · rw [readPort, BitVec.getLsbD, hsum, Nat.testBit_eq_decide_div_mod_eq, decide_eq_false_iff_not]
    interval_cases k <;> omega
  · rw [readPort, BitVec.getLsbD, hsum]
    have hpow : 2 ^ 16 ≤ 2 ^ k := Nat.pow_le_pow_right (by omega) hk
    exact Nat.testBit_lt_two_pow (by omega)

/-- The number is an ASCII letter's code (40_typecode.md R53). -/
def IsLetter (n : Nat) : Prop := (65 ≤ n ∧ n ≤ 90) ∨ (97 ≤ n ∧ n ≤ 122)

/-- 40_typecode.md R53: a byte is alphabetic exactly in the two ranges of letters. -/
theorem alpha_iff (b : Byte) : alpha b = true ↔ IsLetter b.toNat := by
  simp [alpha, IsLetter, BitVec.le_def]

/-- 40_typecode.md R55, with the byte as a digit of the type code's number in base 256. -/
theorem alphaAt_iff (type : Word) (i : Fin 4) :
    alphaAt type i = true ↔ IsLetter (type.toNat / 2 ^ (24 - 8 * i.val) % 256) := by
  rw [← byteOf_toNat]
  exact alpha_iff _

/-- 40_typecode.md R56. -/
theorem typeOk_iff (type : Word) : typeOk type = true ↔ ∀ i, alphaAt type i = true := by
  simp [typeOk, Fin.forall_fin_succ, and_assoc]

/-- Bit 5 of a byte of the type code, from the type code's number. -/
theorem bit5_iff (type : Word) (i : Fin 4) :
    bit5 type i = true ↔ type.toNat / 2 ^ (24 - 8 * i.val) % 256 / 32 % 2 = 1 := by
  rw [← byteOf_toNat, bit5, BitVec.getLsbD, Nat.testBit_eq_decide_div_mod_eq, decide_eq_true_iff]

/-- The flags of R57 to R59 stand for a clear bit 5. -/
theorem not_bit5_iff (type : Word) (i : Fin 4) :
    (!bit5 type i) = true ↔ type.toNat / 2 ^ (24 - 8 * i.val) % 256 / 32 % 2 = 0 := by
  rw [Bool.not_eq_true', ← Bool.not_eq_true, bit5_iff]
  exact Nat.mod_two_ne_one

/-- 10_state.md R23: `TFLAGS` is the list of the ten flags from bit 0 up, and 0 above. -/
theorem tflags_getLsbD (type : Word) (k : Nat) : (tflags type).getLsbD k =
    [alphaAt type 0, alphaAt type 1, alphaAt type 2, alphaAt type 3, typeOk type,
      flagCritical type, flagPublic type, flagReservedValid type, flagSafeToCopy type,
      flagValid type].getD k false := by
  simp only [tflags, BitVec.getLsbD_or, bitAt_getLsbD]
  by_cases hk : k < 10
  · interval_cases k <;> simp
  · have habove : ∀ j, j < 10 → k ≠ j := by omega
    rw [List.getD_eq_default _ _ (Nat.le_of_not_lt hk)]
    simp [habove]

/-- Settles O27: each bit is its flag, and each flag is read from the digits of the type code. -/
theorem tflagsLayoutFollowsTheFourBytes : Obligations.TflagsLayoutFollowsTheFourBytes := by
  refine ⟨fun s => ?_, rfl⟩
  have hletters : typeOk s.type = true ↔
      ∀ i, i < 4 → IsLetter (s.type.toNat / 2 ^ (24 - 8 * i) % 256) := by
    simp only [typeOk_iff, alphaAt_iff, Fin.forall_iff]
  simp only [readPort, tflags_getLsbD]
  refine ⟨fun i hi => ?_, hletters, not_bit5_iff _ 0, not_bit5_iff _ 1, not_bit5_iff _ 2,
    bit5_iff _ 3, ?_, fun k hk => List.getD_eq_default _ _ hk⟩
  · interval_cases i
    exacts [alphaAt_iff _ 0, alphaAt_iff _ 1, alphaAt_iff _ 2, alphaAt_iff _ 3]
  · exact Bool.and_eq_true_iff.trans (and_congr hletters (not_bit5_iff _ 2))

/-! ## The three units, each as a function of the events -/

/-- `CRC_STATE` after one more event (41_crc.md R69 to R71): the CRC unit's own function. -/
def crcEvent (v : Word) (e : PortEvent) : Word :=
  match e with
  | .reset => crcInitial
  | .command c =>
    match decode c with
    | .legal .crcInit => crcInitial
    | .legal (.crcByte d8) => crcByteUpdate v d8
    | .legal (.crcWord w) => crcBytesUpdate v (wordBytes w)
    | .legal .nop => v
    | .legal (.typeLoad _) => v
    | .illegal _ => v

/-- The capture unit: `ERR`, `ERR_CAUSE`, `ERR_OP` (10_state.md R14 to R16). -/
structure Capture where
  err : BitVec 1
  errCause : BitVec 2
  errOp : Byte

/-- The capture fields of a state. -/
def State.capture (s : State) : Capture := ⟨s.err, s.errCause, s.errOp⟩

/-- The capture after one more event (60_exceptions.md R84, R86): the capture unit's own function. -/
def captureEvent (k : Capture) (e : PortEvent) : Capture :=
  match e with
  | .reset => ⟨0#1, 0#2, 0x00#8⟩
  | .command c =>
    match decode c with
    | .legal _ => k
    | .illegal cause => if k.err = 0#1 then ⟨1#1, cause.code, opField c⟩ else k

theorem State.capture_eq_iff {s t : State} :
    s.capture = t.capture ↔ s.err = t.err ∧ s.errCause = t.errCause ∧ s.errOp = t.errOp := by
  simp [State.capture]

@[simp] theorem State.setCrcState_capture (s : State) (v : Word) :
    (s.setCrcState v).capture = s.capture := rfl

@[simp] theorem State.setType_capture (s : State) (v : Word) :
    (s.setType v).capture = s.capture := rfl

@[simp] theorem State.setPending_capture (s : State) (evs : List PortEvent) :
    (s.setPending evs).capture = s.capture := rfl

/-- 60_exceptions.md R84, R86: the capture is written while `ERR` = 0 and kept while `ERR` = 1. -/
@[simp] theorem raiseIllegalCommand_capture (cause : IllegalCause) (op : Byte) (s : State) :
    (raiseIllegalCommand cause op s).capture =
      if s.capture.err = 0#1 then ⟨1#1, cause.code, op⟩ else s.capture :=
  apply_ite State.capture _ _ _

/-- 10_state.md R28: an event changes each unit by that unit's own function. -/
theorem acceptEvent_units {e : PortEvent} {s t : State} (h : acceptEvent e s = .next t) :
    t.crcState = crcEvent s.crcState e ∧ t.type = loadedEvent s.type e ∧
      t.capture = captureEvent s.capture e := by
  cases e with
  | reset =>
    obtain rfl := Host.Outcome.next.inj h
    exact ⟨rfl, rfl, rfl⟩
  | command c =>
    obtain ⟨hdecode, haccept⟩ | ⟨hdecode, haccept⟩ | ⟨_, hdecode, haccept⟩ |
      ⟨_, hdecode, haccept⟩ | ⟨_, hdecode, haccept⟩ | ⟨_, hdecode, haccept⟩ :=
      acceptCommand_cases c s
    all_goals
      obtain rfl := Host.Outcome.next.inj (haccept.symm.trans h)
      simp [crcEvent, loadedEvent, captureEvent, hdecode]

/-- A step with nothing presented keeps the state; with an event it changes each unit by that unit's own
function. -/
theorem step_units {s t : State} (h : step s = .next t) :
    t = s ∨ ∃ e rest, s.pending = e :: rest ∧ t.crcState = crcEvent s.crcState e ∧
      t.type = loadedEvent s.type e ∧ t.capture = captureEvent s.capture e := by
  match hpending : s.pending with
  | [] => exact .inl (Host.Outcome.next.inj (h.symm.trans (step_of_pending_nil hpending)))
  | e :: rest =>
    rw [step_of_pending hpending] at h
    obtain ⟨hcrc, htype, hcapture⟩ := acceptEvent_units h
    exact .inr ⟨e, rest, rfl, hcrc, htype, hcapture⟩

/-- A part of the state that every event changes by a function `f` of that part alone is, after the events
presented, the fold of `f` over them. -/
theorem run_folds {α : Type} {part : State → α} {f : α → PortEvent → α}
    (hpending : ∀ s evs, part (s.setPending evs) = part s)
    (hevent : ∀ s e t, acceptEvent e s = .next t → part t = f (part s) e)
    {s : State} {evs rest : List PortEvent} (hs : s.pending = evs ++ rest) :
    ∃ t : State, Host.Core.run core evs.length s = .next t ∧ t.pending = rest ∧
      part t = evs.foldl f (part s) :=
  run_keeps (P := fun s b => part s = b)
    (fun s _ evs hb => (hpending s evs).trans hb)
    (fun s _ e t hb haccept => hb ▸ hevent s e t haccept) evs rest s (part s) hs rfl

/-- After the events presented each unit is the fold of its own function over them. -/
theorem run_units {s : State} {evs rest : List PortEvent} (hs : s.pending = evs ++ rest) :
    ∃ t : State, Host.Core.run core evs.length s = .next t ∧ t.pending = rest ∧
      t.crcState = evs.foldl crcEvent s.crcState ∧ t.type = evs.foldl loadedEvent s.type ∧
      t.capture = evs.foldl captureEvent s.capture := by
  obtain ⟨t, hrun, hrest, hcrc⟩ := run_folds (fun s evs => s.setPending_crcState evs)
    (fun _ _ _ h => have ⟨hcrc, _, _⟩ := acceptEvent_units h; hcrc) hs
  obtain ⟨t', hrun', -, htype⟩ := run_folds (fun s evs => s.setPending_type evs)
    (fun _ _ _ h => have ⟨_, htype, _⟩ := acceptEvent_units h; htype) hs
  obtain ⟨t'', hrun'', -, hcapture⟩ := run_folds State.setPending_capture
    (fun _ _ _ h => have ⟨_, _, hcapture⟩ := acceptEvent_units h; hcapture) hs
  obtain rfl : t' = t := Host.Outcome.next.inj (hrun'.symm.trans hrun)
  obtain rfl : t'' = t' := Host.Outcome.next.inj (hrun''.symm.trans hrun)
  exact ⟨t'', hrun, hrest, hcrc, htype, hcapture⟩

/-- Settles O38: the two runs fold the same functions over the same events. -/
theorem unitsNeverLearnFromEachOther : Obligations.UnitsNeverLearnFromEachOther := by
  intro s u evs rest hs hu
  obtain ⟨s', hrun, -, hcrc, htype, hcapture⟩ := run_units hs
  obtain ⟨u', hrun', -, hcrc', htype', hcapture'⟩ := run_units hu
  refine ⟨s', u', hrun, hrun', fun h => ?_, fun h => ?_, fun herr hcause hop => ?_⟩
  · rw [hcrc, hcrc', h]
  · rw [htype, htype', h]
  · rw [← State.capture_eq_iff, hcapture, hcapture', State.capture_eq_iff.mpr ⟨herr, hcause, hop⟩]

/-! ## `TYPE` -/

/-- Settles O29: the TCX unit's part of the run. -/
theorem typePortReturnsTheWordLastLoaded : Obligations.TypePortReturnsTheWordLastLoaded := by
  intro s evs rest hs
  obtain ⟨t, hrun, hrest, -, htype, -⟩ := run_units hs
  exact ⟨t, hrun, hrest, htype⟩

/-- 10_state.md R28: a command word that changes `TYPE` is a TYPE.LOAD. -/
theorem loadedEvent_command_ne {type : Word} {c : Cmd} (h : loadedEvent type (.command c) ≠ type) :
    ∃ w, decode c = .legal (.typeLoad w) ∧ loadedEvent type (.command c) = w := by
  revert h
  rw [loadedEvent]
  cases decode c with
  | illegal cause => exact fun h => absurd rfl h
  | legal i =>
    cases i with
    | typeLoad w => exact fun _ => ⟨w, rfl, rfl⟩
    | _ => exact fun h => absurd rfl h

/-- Settles O30: the flags are a function of `TYPE`, so `TYPE` changed too. -/
theorem onlyTypeLoadAndResetChangeTflags : Obligations.OnlyTypeLoadAndResetChangeTflags := by
  intro s t hstep hflags
  have hchanged : t.type ≠ s.type := fun h => hflags (congrArg tflags h)
  obtain rfl | ⟨e, rest, hpending, -, htype, -⟩ := step_units hstep
  · exact absurd rfl hchanged
  cases e with
  | reset => exact .inl ⟨rest, hpending⟩
  | command c =>
    rw [htype] at hchanged ⊢
    obtain ⟨w, hdecode, hload⟩ := loadedEvent_command_ne hchanged
    exact .inr ⟨c, rest, w, hpending, hdecode, hload⟩

/-! ## The capture -/

/-- The fields that record a first illegal command, or none (10_state.md R14 to R16). -/
def captureOf : Option (IllegalCause × Byte) → Capture
  | none => ⟨0#1, 0#2, 0x00#8⟩
  | some (cause, op) => ⟨1#1, cause.code, op⟩

theorem captured_iff (s : State) (first : Option (IllegalCause × Byte)) :
    s.captured first = true ↔ s.capture = captureOf first := by
  cases first <;> simp [State.captured, State.capture, captureOf, and_assoc]

/-- The capture unit records what the spec's account of the first illegal command says. -/
theorem captureEvent_captureOf (first : Option (IllegalCause × Byte)) (e : PortEvent) :
    captureEvent (captureOf first) e = captureOf (firstIllegalEvent first e) := by
  cases e with
  | reset => rfl
  | command c =>
    cases hdecode : decode c <;> cases first <;>
      simp [captureEvent, captureOf, firstIllegalEvent, hdecode]

/-- Settles O34: the capture's part of the run, with the recorded command carried through the fold. -/
theorem captureRecordsTheFirstIllegalCommandSinceReset :
    Obligations.CaptureRecordsTheFirstIllegalCommandSinceReset := by
  intro s first evs rest hs hfirst
  obtain ⟨t, hrun, hrest, -, -, hcapture⟩ := run_units hs
  refine ⟨t, hrun, hrest, (captured_iff t _).mpr ?_⟩
  rw [hcapture, (captured_iff s first).mp hfirst]
  exact List.foldl_hom captureOf captureEvent_captureOf

/-- What a step can do to the capture: keep it, clear it on a reset, or record an illegal command while
`ERR` = 0 (60_exceptions.md R84, R86). -/
theorem step_capture_cases {s t : State} (h : step s = .next t) :
    t.capture = s.capture ∨
    (∃ rest, s.pending = .reset :: rest ∧ t.capture = ⟨0#1, 0#2, 0x00#8⟩) ∨
    (∃ c rest cause, s.pending = .command c :: rest ∧ decode c = .illegal cause ∧ s.err = 0#1 ∧
      t.capture = ⟨1#1, cause.code, opField c⟩) := by
  obtain rfl | ⟨e, rest, hpending, -, -, hcapture⟩ := step_units h
  · exact .inl rfl
  cases e with
  | reset => exact .inr (.inl ⟨rest, hpending, hcapture⟩)
  | command c =>
    cases hdecode : decode c with
    | legal i => exact .inl (by simpa [captureEvent, hdecode] using hcapture)
    | illegal cause =>
      by_cases herr : s.capture.err = 0#1
      · exact .inr (.inr ⟨c, rest, cause, hpending, hdecode, herr,
          by simpa [captureEvent, hdecode, herr] using hcapture⟩)
      · exact .inl (by simpa [captureEvent, hdecode, herr] using hcapture)

/-- Settles O35: of the three things a step can do to the capture, only recording takes `ERR` up and only
a reset takes it down. -/
theorem onlyIllegalCommandSetsErrAndOnlyResetClearsIt :
    Obligations.OnlyIllegalCommandSetsErrAndOnlyResetClearsIt := by
  intro s t hstep
  obtain hkept | ⟨rest, hpending, hclear⟩ | ⟨c, rest, cause, hpending, hdecode, herr, hset⟩ :=
    step_capture_cases hstep
  · have herr : t.err = s.err := congrArg Capture.err hkept
    exact ⟨fun h0 h1 => by simp [herr, h0] at h1, fun h1 h0 => by simp [herr, h1] at h0⟩
  · have herr : t.err = 0#1 := congrArg Capture.err hclear
    exact ⟨fun _ h1 => by simp [herr] at h1, fun _ _ => ⟨rest, hpending⟩⟩
  · exact ⟨fun _ _ => ⟨c, rest, cause, hpending, hdecode⟩, fun h1 _ => by simp [herr] at h1⟩

/-- The invariant speaks of the capture alone. -/
theorem captureWf_congr {s t : State} (h : t.capture = s.capture) : t.captureWf = s.captureWf := by
  obtain ⟨herr, hcause, hop⟩ := State.capture_eq_iff.mp h
  rw [State.captureWf, State.captureWf, herr, hcause, hop]

/-- 60_exceptions.md R81, R82: which opcodes a word of each cause can have. -/
theorem opField_of_illegal {c : Cmd} {cause : IllegalCause} (h : decode c = .illegal cause) :
    (cause = .unassignedOpcode ∧ 0x05#8 ≤ opField c) ∨
    (cause = .reservedBits ∧ opField c ≤ 0x02#8) := by
  unfold decode at h
  split_ifs at h with hnop _ hinit _ hbyte _ hword htype <;> cases h
  · exact .inr ⟨rfl, by simp [hnop]⟩
  · exact .inr ⟨rfl, by simp [hinit]⟩
  · exact .inr ⟨rfl, by simp [hbyte]⟩
  · exact .inl ⟨rfl, by bv_omega⟩

/-- Settles O32. -/
theorem captureInvariantHoldsAtReset : Obligations.CaptureInvariantHoldsAtReset := rfl

/-- Settles O33: a kept capture keeps the invariant, a cleared one is the one of reset, and a recorded one
has an opcode that raises its cause. -/
theorem everyStepKeepsTheCaptureInvariant : Obligations.EveryStepKeepsTheCaptureInvariant := by
  intro s t hwf hstep
  obtain hkept | ⟨rest, -, hclear⟩ | ⟨c, rest, cause, -, hdecode, -, hset⟩ :=
    step_capture_cases hstep
  · rw [captureWf_congr hkept, hwf]
  · exact captureWf_congr (s := State.reset) hclear
  · obtain ⟨herr, hcause, hop⟩ := Capture.mk.inj hset
    obtain ⟨rfl, hopcode⟩ | ⟨rfl, hopcode⟩ := opField_of_illegal hdecode
    all_goals simp [State.captureWf, IllegalCause.code, herr, hcause, hop, hopcode]

/-! ## What a command may write -/

/-- Settles O37, command by command. -/
theorem commandsWriteOnlyTheirOwnUnit : Obligations.CommandsWriteOnlyTheirOwnUnit := by
  intro i s t h
  cases i
  all_goals
    obtain rfl := Host.Outcome.next.inj h
    simp

end Sys2Proof.Machine
end

section
/-! Proofs for the memory family (20_memory.md): the CRC's bytes on the wire, and several instances. A step
always answers, so a step of instance `k` modifies the list of blocks at index `k` and nowhere else. -/

namespace Sys2Proof.Machine

/-! ## The byte order on the wire -/

/-- 20_memory.md R32: the bytes of a word in stream order, read as a big-endian number, are the word. -/
theorem foldl_wordBytes (w : Word) :
    (wordBytes w).foldl (fun n b => 256 * n + b.toNat) 0 = w.toNat := by
  have hcat := cat_toNat (byteOf w 0) (byteOf w 1) (byteOf w 2) (byteOf w 3)
  rw [cat_byteOf] at hcat
  simp only [wordBytes, List.foldl_cons, List.foldl_nil]
  omega

/-- Settles O43: the wire bytes are the bytes of the word that `CRC_OUT` shows. -/
theorem crcGoesOnTheWireMostSignificantFirst :
    Obligations.CrcGoesOnTheWireMostSignificantFirst :=
  fun s => ⟨wordBytes_length (readPort .crcOut s), foldl_wordBytes (readPort .crcOut s)⟩

/-! ## Several instances -/

/-- 20_memory.md R40: where every step answers by `f`, a step of instance `k` is `f` at index `k` of the
list; with no such instance both leave the list as it is. -/
theorem stepInstance_eq_modify {f : State → State} (hf : ∀ s, step s = .next (f s)) (k : Nat)
    (blocks : List State) : stepInstance k blocks = .next (blocks.modify k f) := by
  rw [stepInstance, List.modify_eq_set_getElem?]
  cases hblock : blocks[k]? with
  | none => rfl
  | some s => simp [hf]

/-- Settles O41: the two steps modify the list at two different indexes. -/
theorem instancesShareNothing : Obligations.InstancesShareNothing := by
  intro blocks j k hjk
  choose f hf _ using everyStepAnswersANextState
  have hstep := stepInstance_eq_modify hf
  have hcomm := List.modify_modify_ne f f blocks hjk
  exact ⟨_, _, _, hstep j blocks, hstep k blocks, List.getElem?_modify_ne f blocks hjk,
    List.getElem?_modify_ne f blocks hjk.symm, hstep k _, hcomm ▸ hstep j _⟩

end Sys2Proof.Machine
end

section
/-! Proofs for the encoding family (30_encoding.md): the command word as its two fields, the decoder and the
encoder as inverses, the opcode map compared field by field, and the assembler from characters to words. -/

namespace Sys2Proof

/-! ## The command word and its fields -/

/-- 30_encoding.md R43: the number of the word from the numbers of its fields. -/
theorem command_toNat (op : Byte) (w : Word) :
    (command op w).toNat = op.toNat * 2 ^ 32 + w.toNat := by
  rw [command, BitVec.toNat_append, ← Nat.shiftLeft_add_eq_or_of_lt w.isLt, Nat.shiftLeft_eq]

theorem eq_command_iff {c : Cmd} {op : Byte} {w : Word} :
    c = command op w ↔ opField c = op ∧ operandField c = w := by
  constructor
  · rintro rfl
    exact ⟨opField_command op w, operandField_command op w⟩
  · rintro ⟨rfl, rfl⟩
    exact (command_fields c).symm

theorem command_and_command (op op' : Byte) (w w' : Word) :
    command op w &&& command op' w' = command (op &&& op') (w &&& w') :=
  BitVec.and_append

theorem opField_eq_iff (c : Cmd) (k : Byte) : opField c = k ↔ c.toNat / 4294967296 = k.toNat := by
  rw [← BitVec.toNat_inj, opField_toNat]

theorem operandField_eq_zero_iff (c : Cmd) : operandField c = 0#32 ↔ c.toNat % 4294967296 = 0 := by
  rw [← BitVec.toNat_inj, operandField_toNat]
  rfl

theorem rsv24Field_toNat (c : Cmd) : (rsv24Field c).toNat = c.toNat % 4294967296 / 256 := by
  simp only [rsv24Field, BitVec.extractLsb'_toNat, Nat.shiftRight_eq_div_pow]
  omega

theorem rsv24Field_eq_zero_iff (c : Cmd) :
    rsv24Field c = 0#24 ↔ c.toNat % 4294967296 / 256 = 0 := by
  rw [← BitVec.toNat_inj, rsv24Field_toNat]
  rfl

theorem d8Field_toNat (c : Cmd) : (d8Field c).toNat = c.toNat % 256 := by
  simp [d8Field]

theorem operandField_eq_ofNat (c : Cmd) :
    operandField c = BitVec.ofNat 32 (c.toNat % 4294967296) := by
  simp [← operandField_toNat]

theorem d8Field_eq_ofNat (c : Cmd) : d8Field c = BitVec.ofNat 8 (c.toNat % 4294967296) := by
  rw [d8Field_eq, ← operandField_toNat, BitVec.ofNat_toNat]

/-- 30_encoding.md R44: the operand is its zero-extended data byte exactly if no reserved bit is set. -/
theorem operandField_eq_setWidth_d8Field_iff (c : Cmd) :
    operandField c = (d8Field c).setWidth 32 ↔ rsv24Field c = 0#24 := by
  rw [rsv24Field_eq_zero_iff, ← BitVec.toNat_inj, BitVec.toNat_setWidth, d8Field_toNat,
    operandField_toNat]
  omega

@[simp] theorem d8Field_command_setWidth (op d8 : Byte) :
    d8Field (command op (d8.setWidth 32)) = d8 := by
  simp [d8Field_eq]

@[simp] theorem rsv24Field_command_setWidth (op d8 : Byte) :
    rsv24Field (command op (d8.setWidth 32)) = 0#24 := by
  simp [← operandField_eq_setWidth_d8Field_iff]

/-! ## Decoder and encoder -/

@[simp] theorem decode_encode (i : Instr) : decode (encode i) = .legal i := by
  cases i <;> simp [decode, encode]

/-- 30_encoding.md R45, R47: each legal branch of the decoder fixes both fields of the word. -/
theorem eq_encode_of_decode {c : Cmd} {i : Instr} (h : decode c = .legal i) : c = encode i := by
  unfold decode at h
  split_ifs at h with hop hw hop hw hop hrsv hop hop <;> cases h <;> apply eq_command_iff.mpr
  · exact ⟨hop, hw⟩
  · exact ⟨hop, hw⟩
  · exact ⟨hop, (operandField_eq_setWidth_d8Field_iff c).mpr hrsv⟩
  · exact ⟨hop, rfl⟩
  · exact ⟨hop, rfl⟩

/-- Settles O17: the encoder is the decoder's inverse on both sides. -/
theorem decodeAnswersCommandIffWordIsItsEncoding :
    Obligations.DecodeAnswersCommandIffWordIsItsEncoding :=
  fun i _ => ⟨eq_encode_of_decode, fun h => h ▸ decode_encode i⟩

/-- Settles O14: the decoder's conditions on the fields are R46's on their numbers. -/
theorem decoderFollowsTheOpcodeMap : Obligations.DecoderFollowsTheOpcodeMap := by
  intro c
  simp only [decode, opField_eq_iff, operandField_eq_zero_iff, rsv24Field_eq_zero_iff,
    Nat.reducePow, BitVec.toNat_ofNat, Nat.reduceMod]
  rw [← operandField_eq_ofNat, ← d8Field_eq_ofNat]
  refine ⟨?_, ?_, ?_, ?_, ?_, ?_, ?_, ?_, fun hop => ?_⟩
  case refine_9 => iterate 5 rw [if_neg (by omega)]
  all_goals simp +contextual

/-! ## The opcode map as match and mask -/

/-- 30_encoding.md R43, R45: match and mask are compared field by field. -/
theorem admits_command (m : String) (op opMask : Byte) (w wMask : Word) (c : Cmd) :
    (OpcodeRow.mk m (command op w) (command opMask wMask)).admits c =
      (opField c &&& opMask == op && operandField c &&& wMask == w) := by
  rw [OpcodeRow.admits, Bool.eq_iff_iff, beq_iff_eq]
  nth_rw 1 [← command_fields c]
  rw [command_and_command, eq_command_iff]
  simp

/-- 30_encoding.md R45: the map's rows, match and mask as fields. -/
theorem opcodeTable_eq : opcodeTable = [
    ⟨"nop", command 0x00#8 0#32, command 0xFF#8 0xFFFFFFFF#32⟩,
    ⟨"crc.init", command 0x01#8 0#32, command 0xFF#8 0xFFFFFFFF#32⟩,
    ⟨"crc.byte", command 0x02#8 0#32, command 0xFF#8 0xFFFFFF00#32⟩,
    ⟨"crc.word", command 0x03#8 0#32, command 0xFF#8 0#32⟩,
    ⟨"type.load", command 0x04#8 0#32, command 0xFF#8 0#32⟩] := by decide

/-- 30_encoding.md R45: the mask of CRC.BYTE's row covers exactly the reserved bits. -/
theorem operandField_and_reservedMask (c : Cmd) :
    operandField c &&& 0xFFFFFF00#32 = 0#32 ↔ rsv24Field c = 0#24 := by
  have hc : operandField c = rsv24Field c ++ d8Field c :=
    (BitVec.extractLsb'_append_extractLsb'_eq_extractLsb' (x := c) (len₁ := 8) rfl).symm
  calc operandField c &&& 0xFFFFFF00#32 = 0#32
      ↔ (rsv24Field c ++ d8Field c) &&& (0xFFFFFF#24 ++ 0#8) = 0#24 ++ 0#8 := by rw [hc]; rfl
    _ ↔ rsv24Field c = 0#24 := by
      rw [BitVec.and_append, BitVec.and_zero, BitVec.append_left_inj]
      exact Eq.congr_left BitVec.and_allOnes

/-- Settles O16: each row asks of the fields what the decoder's branch for its command asks. -/
theorem wordLiesInExactlyItsCommandsRow : Obligations.WordLiesInExactlyItsCommandsRow := by
  intro c
  have hopMask : opField c &&& 0xFF#8 = opField c := BitVec.and_allOnes
  have hoperandMask : operandField c &&& 0xFFFFFFFF#32 = operandField c := BitVec.and_allOnes
  unfold decode
  split_ifs
  all_goals simp [opcodeTable_eq, admits_command, operandField_and_reservedMask,
    Instr.mnemonic, *]

end Sys2Proof

namespace Sys2Proof.Machine

/-! ## Statements to command words -/

theorem isSome_ite_some {α : Type} (p : Prop) [Decidable p] (a : α) :
    (if p then some a else none).isSome = decide p :=
  Bool.eq_iff_iff.mpr (Option.isSome_ite.trans decide_eq_true_iff.symm)

theorem byteOperand_isSome (l : AsmLiteral) : (byteOperand l).isSome = l.fitsByte := by
  cases l with
  | number n => exact isSome_ite_some _ _
  | _ => rfl

theorem packString_isSome (bs : List Byte) : (packString bs).isSome = (bs.length == 4) := by
  match bs with
  | [] | [_] | [_, _] | [_, _, _] | [_, _, _, _] => rfl
  | _ :: _ :: _ :: _ :: _ :: _ => simp [packString]

theorem wordOperand_isSome (l : AsmLiteral) : (wordOperand l).isSome = l.fitsWord := by
  cases l with
  | number n => exact isSome_ite_some _ _
  | char b => rfl
  | string bs => exact packString_isSome bs

/-- Settles O45: the one kind of operand a statement has decides it. -/
theorem assemblesExactlyTheWellFormedStatements :
    Obligations.AssemblesExactlyTheWellFormedStatements := by
  intro st
  cases st with
  | cmd c => exact isSome_ite_some _ _
  | _ => simp [assembleStmt, stmtInstrs, AsmStmt.wellFormed, byteOperand_isSome,
      wordOperand_isSome, packString_isSome]

/-- 30_encoding.md R50, R52: a statement that stands for commands assembles to their words. -/
theorem assembleStmt_of_stmtInstrs {st : AsmStmt} {is : List Instr} (h : stmtInstrs st = some is) :
    assembleStmt st = some (is.map encode) := by
  cases st with
  | cmd c => simp [stmtInstrs] at h
  | _ => simp [assembleStmt, h]

/-- The statement assembles to one word, of number `n`. -/
def AssemblesTo (st : AsmStmt) (n : Nat) : Prop :=
  ∃ c : Cmd, assembleStmt st = some [c] ∧ c.toNat = n

theorem assemblesTo_of_command {st : AsmStmt} {i : Instr} {op : Byte} {w : Word} {n : Nat}
    (hst : stmtInstrs st = some [i]) (hi : encode i = command op w)
    (hn : op.toNat * 2 ^ 32 + w.toNat = n) : AssemblesTo st n :=
  ⟨encode i, assembleStmt_of_stmtInstrs hst, by rw [hi, command_toNat, hn]⟩

theorem assemblesTo_cmd {n : Nat} (hn : n < 2 ^ 40) : AssemblesTo (.cmd n) n :=
  ⟨BitVec.ofNat 40 n, if_pos hn, Nat.mod_eq_of_lt hn⟩

theorem assemblesTo_crcByte {l : AsmLiteral} {d : Byte} (h : byteOperand l = some d) :
    AssemblesTo (.crcByte l) (2 * 2 ^ 32 + d.toNat) :=
  assemblesTo_of_command (i := .crcByte d) (by simp [stmtInstrs, h]) rfl
    (congrArg (2 * 2 ^ 32 + ·) (zext32_toNat d))

theorem assemblesTo_crcWord {l : AsmLiteral} {w : Word} (h : wordOperand l = some w) :
    AssemblesTo (.crcWord l) (3 * 2 ^ 32 + w.toNat) :=
  assemblesTo_of_command (i := .crcWord w) (by simp [stmtInstrs, h]) rfl rfl

theorem assemblesTo_typeLoad {l : AsmLiteral} {w : Word} (h : wordOperand l = some w) :
    AssemblesTo (.typeLoad l) (4 * 2 ^ 32 + w.toNat) :=
  assemblesTo_of_command (i := .typeLoad w) (by simp [stmtInstrs, h]) rfl rfl

theorem assemblesTo_typeCheck {t : List Byte} {w : Word} (h : packString t = some w) :
    AssemblesTo (.typeCheck t) (4 * 2 ^ 32 + w.toNat) :=
  assemblesTo_of_command (i := .typeLoad w) (by simp [stmtInstrs, h]) rfl rfl

theorem byteOperand_number {n : Nat} (hn : n < 2 ^ 8) :
    ∃ d : Byte, byteOperand (.number n) = some d ∧ d.toNat = n :=
  ⟨BitVec.ofNat 8 n, if_pos hn, Nat.mod_eq_of_lt hn⟩

theorem wordOperand_number {n : Nat} (hn : n < 2 ^ 32) :
    ∃ w : Word, wordOperand (.number n) = some w ∧ w.toNat = n :=
  ⟨BitVec.ofNat 32 n, if_pos hn, Nat.mod_eq_of_lt hn⟩

/-- 30_encoding.md R51: a string of four bytes is packed in stream order, as a number. -/
theorem packString_number (b0 b1 b2 b3 : Byte) :
    ∃ w : Word, packString [b0, b1, b2, b3] = some w ∧
      w.toNat = b0.toNat * 2 ^ 24 + b1.toNat * 2 ^ 16 + b2.toNat * 2 ^ 8 + b3.toNat :=
  ⟨cat b0 b1 b2 b3, rfl, by rw [cat_toNat]; omega⟩

/-- Settles O46: opcode and operand of each statement's command, and the operand as its literal's number. -/
theorem statementsAssembleToTheirWords : Obligations.StatementsAssembleToTheirWords := by
  refine ⟨assemblesTo_of_command rfl rfl rfl, assemblesTo_of_command rfl rfl rfl,
    fun n hn => ?_, fun b => assemblesTo_crcByte rfl, fun n hn => ?_, fun n hn => ?_,
    fun b0 b1 b2 b3 => ?_, fun n hn => assemblesTo_cmd hn⟩
  · obtain ⟨d, hd, rfl⟩ := byteOperand_number hn
    exact assemblesTo_crcByte hd
  · obtain ⟨w, hw, rfl⟩ := wordOperand_number hn
    exact assemblesTo_crcWord hw
  · obtain ⟨w, hw, rfl⟩ := wordOperand_number hn
    exact assemblesTo_typeLoad hw
  · obtain ⟨w, hw, hnumber⟩ := packString_number b0 b1 b2 b3
    rw [← hnumber]
    exact ⟨assemblesTo_crcWord hw, assemblesTo_typeLoad hw, assemblesTo_typeCheck hw⟩

/-! ## Commands that accumulate bytes, and the expansion of `crc.bytes` -/

/-- The bytes that a command accumulates (41_crc.md R72). -/
def streamBytes : Instr → List Byte
  | .crcByte d8 => [d8]
  | .crcWord w => wordBytes w
  | .nop => []
  | .crcInit => []
  | .typeLoad _ => []

/-- The command does nothing but accumulate bytes: CRC.BYTE or CRC.WORD. -/
def Accumulates (i : Instr) : Prop := (∃ d8, i = .crcByte d8) ∨ ∃ w, i = .crcWord w

theorem exec_of_accumulates {i : Instr} (h : Accumulates i) (s : State) :
    exec i s = .next (s.setCrcState (crcBytesUpdate s.crcState (streamBytes i))) := by
  obtain ⟨_, rfl⟩ | ⟨_, rfl⟩ := h <;> rfl

/-- 41_crc.md R72: a run of commands that accumulate leaves in `CRC_STATE` all their bytes in stream order,
and changes nothing else of the block. -/
theorem run_presented_of_accumulates (is : List Instr) (s : State) (rest : List PortEvent)
    (h : ∀ i ∈ is, Accumulates i) :
    Host.Core.run core is.length (s.setPending (presented is ++ rest)) =
      .next ((s.setCrcState
        (crcBytesUpdate s.crcState (is.flatMap streamBytes))).setPending rest) := by
  induction is generalizing s with
  | nil => rfl
  | cons i is ih =>
    obtain ⟨hi, his⟩ := List.forall_mem_cons.mp h
    have hstep : step (s.setPending (presented (i :: is) ++ rest)) = _ :=
      (stepRunsTheDecodedCommand _ _ _ _ rfl (decode_encode i)).trans (exec_of_accumulates hi _)
    rw [List.length_cons, run_succ _ hstep, List.flatMap_cons, crcBytesUpdate_append]
    exact ih (s.setCrcState _) his

theorem expandBytes_length (m : List Byte) :
    (expandBytes m).length = m.length / 4 + m.length % 4 := by
  match m with
  | [] | [_] | [_, _] | [_, _, _] => simp [expandBytes]
  | _ :: _ :: _ :: _ :: rest =>
    have ih := expandBytes_length rest
    simp only [expandBytes, List.length_cons, ih]
    omega

theorem flatMap_streamBytes_map_crcByte (m : List Byte) :
    (m.map Instr.crcByte).flatMap streamBytes = m := by
  rw [List.flatMap_map]
  exact List.flatMap_singleton' m

theorem expandBytes_accumulates (m : List Byte) : ∀ i ∈ expandBytes m, Accumulates i := by
  induction m using expandBytes.induct with
  | case1 b0 b1 b2 b3 rest ih => exact List.forall_mem_cons.mpr ⟨.inr ⟨_, rfl⟩, ih⟩
  | case2 rest h => simp [expandBytes, Accumulates]

theorem flatMap_streamBytes_expandBytes (m : List Byte) :
    (expandBytes m).flatMap streamBytes = m := by
  induction m using expandBytes.induct with
  | case1 b0 b1 b2 b3 rest ih => simp [expandBytes, streamBytes, ih]
  | case2 rest h => rw [expandBytes.eq_2 rest h, flatMap_streamBytes_map_crcByte]

/-- Settles O47: the expansion and the single commands accumulate the same bytes. -/
theorem bytesExpansionEqualsByteCommands : Obligations.BytesExpansionEqualsByteCommands := by
  intro s m rest
  have hexpand := run_presented_of_accumulates (expandBytes m) s rest (expandBytes_accumulates m)
  have hbytes := run_presented_of_accumulates (m.map .crcByte) s rest (by simp [Accumulates])
  rw [flatMap_streamBytes_expandBytes] at hexpand
  rw [flatMap_streamBytes_map_crcByte, List.length_map] at hbytes
  exact ⟨expandBytes_length m, _, hexpand, hbytes, rfl⟩

/-! ## Comments, and the case of statement words -/

theorem readChars_append (r : AsmReader) (cs cs' : List Char) :
    readChars r (cs ++ cs') = (readChars r cs).bind fun r' => readChars r' cs' := by
  induction cs generalizing r with
  | nil => rfl
  | cons c cs ih =>
    simp only [List.cons_append, readChars]
    cases readChar r c with
    | none => rfl
    | some r' => exact ih r'

/-- 30_encoding.md R50: a comment runs to the end of its line. -/
theorem readChars_comment (ts : List AsmToken) (cs : List Char) :
    readChars ⟨.comment, ts⟩ cs = some ⟨.comment, ts⟩ := by
  induction cs with
  | nil => rfl
  | cons c cs ih => exact ih

/-- Where a line may end, a semicolon begins a comment and loses no token. -/
theorem readChar_semicolon {r : AsmReader} {tokens : List AsmToken}
    (h : finishLine r = some tokens) : readChar r ';' = some ⟨.comment, tokens.reverse⟩ := by
  obtain ⟨mode, ts⟩ := r
  cases mode with
  | between | inWord _ | comment =>
    obtain rfl := Option.some.inj h
    simp [readChar, readBetween, endsWord, isBlank]
  | inQuote _ _ | escape _ _ | escapeHigh _ _ | escapeLow _ _ _ => simp [finishLine] at h

/-- Settles O49: the readable line ends where a semicolon begins a comment. -/
theorem commentsAreIgnored : Obligations.CommentsAreIgnored := by
  intro line comment tokens h
  obtain ⟨r, hr, hfinish⟩ := Option.bind_eq_some_iff.mp h
  have hread : readChars r (';' :: comment) = some ⟨.comment, tokens.reverse⟩ := by
    rw [readChars, readChar_semicolon hfinish]
    exact readChars_comment _ _
  rw [lineTokens, readChars_append, hr, Option.bind_some, hread]
  simp [finishLine]

/-- Settles O50: a statement word is looked up by its letters in lower case alone. -/
theorem mnemonicsAreCaseInsensitive : Obligations.MnemonicsAreCaseInsensitive := by
  intro cs cs' h
  rw [readMnemonic, readMnemonic, h]

end Sys2Proof.Machine
end

section
/-! Proofs for the type-code family (40_typecode.md): the property flags as bits of `TYPE`, the load, and
the letters. -/

namespace Sys2Proof.Machine

/-- Settles O28: the port shows each property flag at its place, and a flag is bit 5 of its byte, inverted
but for the last. -/
theorem propertyFlagsReadBitFiveOfTheirByte :
    Obligations.PropertyFlagsReadBitFiveOfTheirByte := by
  intro s
  simp only [readPort, tflags_getLsbD]
  exact ⟨congrArg not (bit5_eq s.type 0), congrArg not (bit5_eq s.type 1),
    congrArg not (bit5_eq s.type 2), bit5_eq s.type 3⟩

/-- Settles O9: the command's effect is the write of `TYPE`, with no test of the word (40_typecode.md R63). -/
theorem typeLoadWritesTheTypeOnly : Obligations.TypeLoadWritesTheTypeOnly :=
  execTypeLoad_eq

/-- Settles O26: `IsLetter` is the two ranges. -/
theorem alphaIsTheTwoLetterRanges : Obligations.AlphaIsTheTwoLetterRanges :=
  alpha_iff

end Sys2Proof.Machine
end

section
/-! Proofs for the CRC family (41_crc.md). One pass of R66's loop is linear over GF(2), and it is injective
because the top bit of its result is the bit it shifted out; the laws of the byte update and of the register
over a sequence follow from these two facts. -/

namespace Sys2Proof.Machine

/-! ## Runs: the register as the account of the accumulated bytes -/

/-- 41_crc.md R72: an event takes the register of the bytes accumulated before it to the register of those
accumulated after it. -/
theorem crcEvent_crcRegister (m : List Byte) (e : PortEvent) :
    crcEvent (crcRegister m) e = crcRegister (accumulateEvent m e) := by
  cases e with
  | reset => rfl
  | command c =>
    rw [crcEvent, accumulateEvent]
    cases decode c with
    | illegal cause => rfl
    | legal i =>
      cases i with
      | crcByte d8 => exact (crcRegister_append m [d8]).symm
      | crcWord w => exact (crcRegister_append m (wordBytes w)).symm
      | nop | crcInit | typeLoad _ => rfl

/-- Settles O24: the CRC unit's part of the run, with the byte sequence carried through the fold. -/
theorem runLeavesTheCrcOfTheAccumulatedBytes : Obligations.RunLeavesTheCrcOfTheAccumulatedBytes := by
  intro s m evs rest hs hm
  obtain ⟨t, hrun, hrest, hcrc, -, -⟩ := run_units hs
  have hregister : t.crcState = crcRegister (evs.foldl accumulateEvent m) := by
    rw [hcrc, hm]
    exact List.foldl_hom crcRegister crcEvent_crcRegister
  exact ⟨t, hrun, hrest, hregister, congrArg crcValue hregister⟩

/-- Settles O25: both programs accumulate the four bytes of the word. -/
theorem wordCommandEqualsFourByteCommands : Obligations.WordCommandEqualsFourByteCommands := by
  intro s w rest
  have hword := run_presented_of_accumulates [.crcWord w] s rest (by simp [Accumulates])
  have hbytes := run_presented_of_accumulates ((wordBytes w).map .crcByte) s rest
    (by simp [Accumulates])
  rw [flatMap_streamBytes_map_crcByte] at hbytes
  exact hword.trans hbytes.symm

/-! ## The loop's pass -/

/-- What a pass mixes in after the shift, by the bit it shifted out (41_crc.md R66). -/
def crcFeedback (lsb : Bool) : Word := if lsb then crcPoly else 0#32

theorem crcFeedback_xor (a b : Bool) : crcFeedback (a ^^ b) = crcFeedback a ^^^ crcFeedback b := by
  cases a <;> cases b <;> decide

/-- The top bit of `POLY` is set, so it tells whether `POLY` was mixed in. -/
theorem crcFeedback_msb (lsb : Bool) : (crcFeedback lsb).getLsbD 31 = lsb := by
  cases lsb <;> decide

theorem crcShift_eq (c : Word) : crcShift c = (c >>> 1) ^^^ crcFeedback (c.getLsbD 0) := by
  rw [crcShift, crcFeedback]
  split
  · rfl
  · exact BitVec.xor_zero.symm

/-- The loop is the pass iterated. -/
theorem crcShifts_eq_iterate (n : Nat) (c : Word) : crcShifts n c = crcShift^[n] c := by
  induction n generalizing c with
  | zero => rfl
  | succ n ih => exact ih (crcShift c)

/-- 41_crc.md R66: the byte update, with its loop as an iteration. -/
theorem crcByteUpdate_eq (c : Word) (d : Byte) :
    crcByteUpdate c d = crcShift^[8] (c ^^^ zext32 d) :=
  crcShifts_eq_iterate 8 _

/-- 41_crc.md R74: the shift and the feedback are both linear. -/
theorem crcShift_xor (a b : Word) : crcShift (a ^^^ b) = crcShift a ^^^ crcShift b := by
  rw [crcShift_eq, crcShift_eq, crcShift_eq, BitVec.getLsbD_xor, crcFeedback_xor,
    BitVec.ushiftRight_xor_distrib]
  ac_rfl

theorem crcShift_iterate_xor (n : Nat) (a b : Word) :
    crcShift^[n] (a ^^^ b) = crcShift^[n] a ^^^ crcShift^[n] b :=
  Function.Semiconj₂.iterate (op := (· ^^^ ·)) crcShift_xor n a b

/-- The top bit after a pass is the bit it shifted out. -/
theorem crcShift_msb (c : Word) : (crcShift c).getLsbD 31 = c.getLsbD 0 := by
  rw [crcShift_eq, BitVec.getLsbD_xor, crcFeedback_msb, BitVec.getLsbD_ushiftRight,
    BitVec.getLsbD_of_ge c _ (Nat.le_refl 32), Bool.false_xor]

/-- No pass merges two registers: the bit shifted out stands on top of the result, and without the feedback
the rest is the register shifted. -/
theorem crcShift_injective : Function.Injective crcShift := by
  intro a b hab
  have hlsb : a.getLsbD 0 = b.getLsbD 0 := by rw [← crcShift_msb, hab, crcShift_msb]
  have hshift : a >>> 1 = b >>> 1 := by
    rwa [crcShift_eq, crcShift_eq, hlsb, BitVec.xor_left_inj] at hab
  apply BitVec.eq_of_getLsbD_eq
  intro k hk
  cases k with
  | zero => exact hlsb
  | succ k => simpa [Nat.add_comm 1] using congrArg (BitVec.getLsbD · k) hshift

/-- While only zeros are shifted out, the loop is a plain shift. -/
theorem crcShift_iterate_of_low_zero {n : Nat} {c : Word} (h : ∀ k < n, c.getLsbD k = false) :
    crcShift^[n] c = c >>> n := by
  induction n with
  | zero => simp
  | succ n ih =>
    have hlsb : (c >>> n).getLsbD 0 = false := by simpa using h n (Nat.lt_succ_self n)
    rw [Function.iterate_succ_apply', ih fun k hk => h k (Nat.lt_succ_of_lt hk),
      crcShift_eq, hlsb, BitVec.shiftRight_add]
    exact BitVec.xor_zero

/-! ## The byte update -/

theorem zext32_xor (d₁ d₂ : Byte) : zext32 (d₁ ^^^ d₂) = zext32 d₁ ^^^ zext32 d₂ :=
  BitVec.setWidth_xor

theorem zext32_injective : Function.Injective zext32 := fun d₁ d₂ h =>
  BitVec.eq_of_toNat_eq (by rw [← zext32_toNat, h, zext32_toNat])

/-- Settles O21: the operands' xor passes through the zero extension and through the loop. -/
theorem crcByteIsLinear : Obligations.CrcByteIsLinear := by
  refine ⟨rfl, fun c₁ c₂ d₁ d₂ => ?_⟩
  have hoperand : c₁ ^^^ c₂ ^^^ zext32 (d₁ ^^^ d₂) = (c₁ ^^^ zext32 d₁) ^^^ (c₂ ^^^ zext32 d₂) := by
    rw [zext32_xor]
    ac_rfl
  simp only [crcByteUpdate_eq, hoperand, crcShift_iterate_xor]

theorem crcByteUpdate_injective_register (d : Byte) :
    Function.Injective fun c => crcByteUpdate c d := by
  intro a b hab
  simp only [crcByteUpdate_eq] at hab
  exact (BitVec.xor_left_inj _).mp (crcShift_injective.iterate 8 hab)

theorem crcByteUpdate_injective_byte (c : Word) : Function.Injective (crcByteUpdate c) := by
  intro d₁ d₂ h
  rw [crcByteUpdate_eq, crcByteUpdate_eq] at h
  exact zext32_injective ((BitVec.xor_right_inj _).mp (crcShift_injective.iterate 8 h))

/-- Settles O22: an injective map of a finite set into itself is a bijection. -/
theorem crcByteIsABijectionOfTheRegister : Obligations.CrcByteIsABijectionOfTheRegister :=
  fun d => Finite.injective_iff_bijective.mp (crcByteUpdate_injective_register d)

/-! ## The table -/

/-- 41_crc.md R68: the printed entries, evaluated against `crc_byte(0, n)`. -/
theorem crcTable_eq :
    crcTable = (List.range 256).map fun n => crcByteUpdate 0#32 (BitVec.ofNat 8 n) := by
  decide +kernel

theorem crcTable_getElem? (n : Byte) :
    crcTable[n.toNat]? = some (crcByteUpdate 0#32 n) := by
  simp [crcTable_eq, List.getElem?_range n.isLt]

theorem crcTableEntry_eq (n : Byte) : crcTableEntry n = crcByteUpdate 0#32 n := by
  rw [crcTableEntry, List.getD_eq_getElem?_getD, crcTable_getElem?, Option.getD_some]

theorem zext32_ushiftRight_eight (d : Byte) : zext32 d >>> 8 = 0#32 := by
  apply BitVec.eq_of_toNat_eq
  have hd := d.isLt
  simp only [BitVec.toNat_ushiftRight, zext32_toNat, Nat.shiftRight_eq_div_pow, BitVec.toNat_ofNat]
  omega

/-- The table's index for an operand (41_crc.md R68). -/
def lowByte (v : Word) : Byte := (v &&& 0xFF#32).setWidth 8

theorem zext32_lowByte_getLsbD (v : Word) {k : Nat} (hk : k < 8) :
    (zext32 (lowByte v)).getLsbD k = v.getLsbD k := by
  have hk32 : k < 32 := by omega
  have hmask : (0xFF#32).getLsbD k = true := by interval_cases k <;> rfl
  simp [zext32, lowByte, hk, hk32, hmask]

/-- 41_crc.md R68: by linearity the eight passes act apart on the operand's low byte, where they are its table
entry, and on the rest, which they shift. -/
theorem crcShift_iterate_eight (v : Word) :
    crcShift^[8] v = crcByteUpdate 0#32 (lowByte v) ^^^ (v >>> 8) := by
  have hrest : crcShift^[8] (zext32 (lowByte v) ^^^ v) = v >>> 8 := by
    rw [crcShift_iterate_of_low_zero, BitVec.ushiftRight_xor_distrib, zext32_ushiftRight_eight,
      BitVec.zero_xor]
    intro k hk
    rw [BitVec.getLsbD_xor, zext32_lowByte_getLsbD v hk, Bool.xor_self]
  calc crcShift^[8] v
      = crcShift^[8] (zext32 (lowByte v) ^^^ (zext32 (lowByte v) ^^^ v)) := by
        rw [← BitVec.xor_assoc, BitVec.xor_self, BitVec.zero_xor]
    _ = crcByteUpdate 0#32 (lowByte v) ^^^ (v >>> 8) := by
        rw [crcShift_iterate_xor, hrest, crcByteUpdate_eq, BitVec.zero_xor]

/-- 41_crc.md R68: the byte lies below the part of the operand that is shifted down. -/
theorem crcByteUpdateByTable_eq (c : Word) (d : Byte) :
    crcByteUpdateByTable c d = crcByteUpdate c d := by
  rw [crcByteUpdate_eq, crcShift_iterate_eight, BitVec.ushiftRight_xor_distrib,
    zext32_ushiftRight_eight, BitVec.xor_zero, ← crcTableEntry_eq]
  rfl

/-- Settles O20: the printed entries are evaluated, and linearity carries them to every register. -/
theorem tableDrivenUnitEqualsBitwiseUnit : Obligations.TableDrivenUnitEqualsBitwiseUnit :=
  ⟨by simp [crcTable_eq], crcTable_getElem?, crcByteUpdateByTable_eq⟩

/-! ## The CRC of a sequence -/

theorem crcBytesUpdate_injective (m : List Byte) :
    Function.Injective fun c => crcBytesUpdate c m := by
  induction m with
  | nil => exact Function.injective_id
  | cons d m ih => exact ih.comp (crcByteUpdate_injective_register d)

theorem crcValue_injective : Function.Injective crcValue :=
  Function.LeftInverse.injective crcValue_crcValue

/-- 41_crc.md R75: sequences that differ in one byte leave different registers. -/
theorem crcRegister_ne_of_byte_ne {d d' : Byte} (h : d' ≠ d) (pre post : List Byte) :
    crcRegister (pre ++ d' :: post) ≠ crcRegister (pre ++ d :: post) := by
  rw [crcRegister_append, crcRegister_append, crcBytesUpdate_cons, crcBytesUpdate_cons]
  exact (crcBytesUpdate_injective post).ne ((crcByteUpdate_injective_byte _).ne h)

theorem one_shiftLeft_ne_zero {b : Nat} (hb : b < 8) : (1#8 <<< b) ≠ 0#8 := by
  interval_cases b <;> decide

/-- Settles O23: the flip changes the register, and the final XOR keeps registers apart. -/
theorem singleBitErrorChangesTheCrc : Obligations.SingleBitErrorChangesTheCrc := by
  intro m k b hk hb
  have hregister : crcRegister (m.modify k fun d => d ^^^ (1#8 <<< b)) ≠ crcRegister m := by
    obtain ⟨pre, d, post, hm, -, hflipped⟩ := List.exists_of_modify (· ^^^ (1#8 <<< b)) hk
    rw [hflipped, hm]
    exact crcRegister_ne_of_byte_ne (by simpa using one_shiftLeft_ne_zero hb) pre post
  refine ⟨crcValue_injective.ne hregister, fun s u hs hu => crcValue_injective.ne ?_⟩
  rwa [hs, hu]

/-- Settles O19: the register before the final XOR is the value with the XOR undone. -/
theorem crc32StartsFromInitAndTakesBytesInOrder :
    Obligations.Crc32StartsFromInitAndTakesBytesInOrder := by
  refine ⟨rfl, fun m d => ?_⟩
  have hregister : crc32 m ^^^ 0xFFFFFFFF#32 = crcRegister m := crcValue_crcValue _
  rw [hregister]
  exact congrArg crcValue (crcRegister_append m [d])

/-! ## The commands -/

/-- Settles O6: the command's effect is the write of `INIT`. -/
theorem crcInitWritesTheInitialValueOnly : Obligations.CrcInitWritesTheInitialValueOnly :=
  execCrcInit_eq

/-- `Nat.repeat` applies the function outermost, the iteration innermost. -/
theorem repeat_eq_iterate {α : Type} (f : α → α) (n : Nat) (a : α) : Nat.repeat f n a = f^[n] a := by
  induction n with
  | zero => rfl
  | succ n ih => rw [Function.iterate_succ_apply', ← ih, Nat.repeat]

/-- Settles O7: the loop written out is the iteration of the pass. -/
theorem crcByteRunsTheReflectedLoop : Obligations.CrcByteRunsTheReflectedLoop := by
  intro d8 s
  have hloop := (crcByteUpdate_eq s.crcState d8).trans (repeat_eq_iterate crcShift 8 _).symm
  exact congrArg (fun v => Host.Outcome.next (s.setCrcState v)) hloop

/-- Settles O8: the fold over the word's bytes, most significant first, written out. -/
theorem crcWordRunsFourByteUpdatesInStreamOrder :
    Obligations.CrcWordRunsFourByteUpdatesInStreamOrder :=
  execCrcWord_eq

/-! ## The chunk -/

/-- 30_encoding.md R51: the bytes of a packed string, in stream order, are the string. -/
theorem wordBytes_of_packString {bs : List Byte} {w : Word} (h : packString bs = some w) :
    wordBytes w = bs := by
  match bs with
  | [b0, b1, b2, b3] =>
    obtain rfl := Option.some.inj h
    exact wordBytes_cat b0 b1 b2 b3
  | [] | [_] | [_, _] | [_, _, _] | _ :: _ :: _ :: _ :: _ :: _ => simp [packString] at h

/-- 30_encoding.md R52: the words of `crc.chunk` are those of its expansion, for the packed type. -/
theorem assembleStmt_crcChunk {ty p : List Byte} {cs : List Cmd}
    (h : assembleStmt (.crcChunk ty p) = some cs) :
    ∃ w, packString ty = some w ∧ cs = (expandChunk w p).map encode := by
  simpa [assembleStmt, stmtInstrs, eq_comm] using h

theorem setPending_of_pending {s : State} {evs : List PortEvent} (h : s.pending = evs) :
    s.setPending evs = s := by
  rw [← h]
  rfl

/-- 41_crc.md R73: the commands of `crc.chunk` start a new CRC and leave in it the bytes of the type word and
of the payload; they change nothing else of the block. -/
theorem run_expandChunk (w : Word) (p : List Byte) (s : State) (rest : List PortEvent) :
    Host.Core.run core (expandChunk w p).length (s.setPending (presented (expandChunk w p) ++ rest)) =
      .next ((s.setCrcState (crcRegister (wordBytes w ++ p))).setPending rest) := by
  have hinit : step (s.setPending (presented (expandChunk w p) ++ rest)) = .next _ :=
    stepRunsTheDecodedCommand _ _ _ .crcInit rfl (decode_encode .crcInit)
  have haccumulates : ∀ i ∈ .crcWord w :: expandBytes p, Accumulates i :=
    List.forall_mem_cons.mpr ⟨.inr ⟨w, rfl⟩, expandBytes_accumulates p⟩
  have hbytes := run_presented_of_accumulates _ (s.setCrcState crcInitial) rest haccumulates
  rw [List.flatMap_cons, flatMap_streamBytes_expandBytes] at hbytes
  exact (run_succ _ hinit).trans hbytes

/-- Settles O48: the run of the expansion, with the type string for the bytes of its word. -/
theorem chunkExpansionLeavesTheChunkChecksum : Obligations.ChunkExpansionLeavesTheChunkChecksum := by
  intro s ty p cs rest hassemble hpending
  obtain ⟨w, hpack, rfl⟩ := assembleStmt_crcChunk hassemble
  rw [List.map_map] at hpending
  have hs : s.setPending (presented (expandChunk w p) ++ rest) = s := setPending_of_pending hpending
  have hrun := run_expandChunk w p s rest
  rw [hs, wordBytes_of_packString hpack] at hrun
  rw [List.length_map]
  exact ⟨_, hrun, rfl, rfl, rfl, rfl, rfl, rfl, fun _ => bne_iff_ne⟩

end Sys2Proof.Machine
end

section
/-! Proofs for the control family (42_control.md): events that may be left out of a run. A run folds each
unit's function over the events, and a fold does not see the events that its function keeps every value at. -/

namespace Sys2Proof.Machine

/-- A fold is the same over the elements that may change the value. -/
theorem foldl_filter_of_kept {α β : Type} {f : β → α → β} {p : α → Bool}
    (h : ∀ b a, p a = false → f b a = b) (l : List α) (b : β) :
    (l.filter p).foldl f b = l.foldl f b := by
  rw [List.foldl_filter]
  congr 1
  funext b a
  cases hp : p a with
  | true => rfl
  | false => exact (h b a hp).symm

/-- `run_units` where nothing stands behind the events. -/
theorem run_units_all {s : State} {evs : List PortEvent} (hs : s.pending = evs) :
    ∃ t : State, Host.Core.run core evs.length s = .next t ∧ t.pending = [] ∧
      t.crcState = evs.foldl crcEvent s.crcState ∧ t.type = evs.foldl loadedEvent s.type ∧
      t.capture = evs.foldl captureEvent s.capture :=
  run_units (hs.trans evs.append_nil.symm)

/-! ## Illegal commands -/

theorem PortEvent.eq_command_of_not_legal {e : PortEvent} (h : e.legal = false) :
    ∃ c cause, e = .command c ∧ decode c = .illegal cause := by
  cases e with
  | reset => simp [PortEvent.legal] at h
  | command c =>
    cases hdecode : decode c with
    | legal i => simp [PortEvent.legal, hdecode] at h
    | illegal cause => exact ⟨c, cause, rfl, hdecode⟩

/-- 42_control.md R77: an illegal command does not write `CRC_STATE`. -/
theorem crcEvent_of_not_legal (v : Word) (e : PortEvent) (h : e.legal = false) :
    crcEvent v e = v := by
  obtain ⟨c, cause, rfl, hdecode⟩ := PortEvent.eq_command_of_not_legal h
  simp [crcEvent, hdecode]

/-- 42_control.md R77: an illegal command does not write `TYPE`. -/
theorem loadedEvent_of_not_legal (type : Word) (e : PortEvent) (h : e.legal = false) :
    loadedEvent type e = type := by
  obtain ⟨c, cause, rfl, hdecode⟩ := PortEvent.eq_command_of_not_legal h
  simp [loadedEvent, hdecode]

/-- Settles O39: the CRC unit and the TCX unit each fold over the events, and neither fold sees the illegal
commands. -/
theorem illegalCommandsDoNotDisturbTheData : Obligations.IllegalCommandsDoNotDisturbTheData := by
  intro s u evs hs hu hcrc htype
  obtain ⟨s', hrun, -, hcrc', htype', -⟩ := run_units_all hs
  obtain ⟨u', hrun', -, hcrc'', htype'', -⟩ := run_units_all hu
  refine ⟨s', u', hrun, hrun', ?_, ?_⟩
  · rw [hcrc', hcrc'', foldl_filter_of_kept crcEvent_of_not_legal, hcrc]
  · rw [htype', htype'', foldl_filter_of_kept loadedEvent_of_not_legal, htype]

/-! ## NOP -/

/-- Settles O5: the command's effect is the state itself. -/
theorem nopWritesNothing : Obligations.NopWritesNothing :=
  execNop_eq

/-- 42_control.md R76: no unit changes on the NOP word. -/
theorem units_of_nop :
    (∀ v, crcEvent v (.command 0#40) = v) ∧ (∀ type, loadedEvent type (.command 0#40) = type) ∧
      ∀ k, captureEvent k (.command 0#40) = k := by
  have hdecode : decode 0#40 = .legal .nop := decode_encode .nop
  simp [crcEvent, loadedEvent, captureEvent, hdecode]

/-- The three units and what is still to be presented are the whole state. -/
theorem State.eq_of_units {s t : State} (hcrc : s.crcState = t.crcState) (htype : s.type = t.type)
    (hcapture : s.capture = t.capture) (hpending : s.pending = t.pending) : s = t := by
  obtain ⟨herr, hcause, hop⟩ := State.capture_eq_iff.mp hcapture
  cases s
  cases t
  exact (State.mk.injEq ..).mpr ⟨hcrc, htype, herr, hcause, hop, hpending⟩

/-- The fold of a function that keeps every value at the NOP word does not see the NOPs. -/
theorem foldl_filter_nop {α : Type} {f : α → PortEvent → α} (h : ∀ a, f a (.command 0#40) = a)
    (evs : List PortEvent) (a : α) :
    (evs.filter (fun e => e != .command 0#40)).foldl f a = evs.foldl f a := by
  refine foldl_filter_of_kept (fun a e he => ?_) evs a
  obtain rfl : e = .command 0#40 := by simpa using he
  exact h a

/-- Settles O40: the two runs fold to the same value in every unit, and leave nothing to be presented. -/
theorem nopsAnywhereChangeNoResult : Obligations.NopsAnywhereChangeNoResult := by
  intro s u evs hs hu
  obtain rfl : u = s.setPending (evs.filter (fun e => e != .command 0#40)) := hu
  obtain ⟨hnopCrc, hnopType, hnopCapture⟩ := units_of_nop
  obtain ⟨t, hrun, hrest, hcrc, htype, hcapture⟩ := run_units_all hs
  obtain ⟨t', hrun', hrest', hcrc', htype', hcapture'⟩ :=
    run_units_all (s.setPending_pending (evs.filter (fun e => e != .command 0#40)))
  rw [foldl_filter_nop hnopCrc] at hcrc'
  rw [foldl_filter_nop hnopType] at htype'
  rw [foldl_filter_nop hnopCapture] at hcapture'
  obtain rfl : t = t' := State.eq_of_units (hcrc.trans hcrc'.symm) (htype.trans htype'.symm)
    (hcapture.trans hcapture'.symm) (hrest.trans hrest'.symm)
  exact ⟨t, hrun, hrun'⟩

end Sys2Proof.Machine
end

section
/-! Proofs for the exceptions family (60_exceptions.md): which words are illegal and with which cause, what a
step captures of one, and how long the capture stays. -/

namespace Sys2Proof.Machine

/-! ## What the capture unit makes of an event -/

/-- 60_exceptions.md R84: the capture unit records an illegal command accepted while `ERR` = 0. -/
theorem captureEvent_of_illegal {k : Capture} {c : Cmd} {cause : IllegalCause} (hk : k.err = 0#1)
    (hdecode : decode c = .illegal cause) :
    captureEvent k (.command c) = ⟨1#1, cause.code, opField c⟩ := by
  simp [captureEvent, hdecode, hk]

theorem captureEvent_of_legal {k : Capture} {c : Cmd} {i : Instr} (hdecode : decode c = .legal i) :
    captureEvent k (.command c) = k := by
  simp [captureEvent, hdecode]

/-- 60_exceptions.md R86: while `ERR` = 1 no event but a reset changes the capture. -/
theorem captureEvent_of_err {k : Capture} {e : PortEvent} (hk : k.err = 1#1) (he : e ≠ .reset) :
    captureEvent k e = k := by
  cases e with
  | reset => exact absurd rfl he
  | command c =>
    cases hdecode : decode c with
    | legal i => exact captureEvent_of_legal hdecode
    | illegal cause => simp [captureEvent, hdecode, hk]

theorem foldl_captureEvent_of_err {k : Capture} {evs : List PortEvent} (hk : k.err = 1#1)
    (hevs : .reset ∉ evs) : evs.foldl captureEvent k = k := by
  refine List.foldlRecOn (motive := (· = k)) evs captureEvent rfl ?_
  rintro _ rfl e he
  exact captureEvent_of_err hk (ne_of_mem_of_not_mem he hevs)

/-- Settles O36: no event changes the capture, and the other two units do not learn what `ERR` was. -/
theorem captureStaysUntilResetWhileCommandsGoOn :
    Obligations.CaptureStaysUntilResetWhileCommandsGoOn := by
  intro s evs rest hs herr hevs
  obtain ⟨t, hrun, -, hcrc, htype, hcapture⟩ := run_units hs
  obtain ⟨u, hrun', -, hcrc', htype', -⟩ := run_units (s := { s with err := 0#1 }) hs
  rw [foldl_captureEvent_of_err herr hevs] at hcapture
  obtain ⟨herr', hcause, hop⟩ := State.capture_eq_iff.mp hcapture
  exact ⟨t, u, hrun, herr'.trans herr, hcause, hop, hrun', hcrc.trans hcrc'.symm,
    htype.trans htype'.symm⟩

/-! ## Illegal commands -/

/-- 60_exceptions.md R81: the opcode of the word, read as a number, is unassigned. -/
def HasUnassignedOpcode (c : Cmd) : Prop := 5 ≤ c.toNat / 2 ^ 32

/-- 60_exceptions.md R82: the word, read as a number, has an operand bit set that its opcode reserves. -/
def HasReservedBitSet (c : Cmd) : Prop :=
  (c.toNat / 2 ^ 32 ≤ 1 ∧ c.toNat % 2 ^ 32 ≠ 0) ∨
  (c.toNat / 2 ^ 32 = 2 ∧ c.toNat % 2 ^ 32 / 2 ^ 8 ≠ 0)

theorem decode_of_hasUnassignedOpcode {c : Cmd} (h : HasUnassignedOpcode c) :
    decode c = .illegal .unassignedOpcode := by
  obtain ⟨-, -, -, -, -, -, -, -, hunassigned⟩ := decoderFollowsTheOpcodeMap c
  exact hunassigned h

theorem decode_of_hasReservedBitSet {c : Cmd} (h : HasReservedBitSet c) :
    decode c = .illegal .reservedBits := by
  obtain ⟨-, hnop, -, hinit, -, hbyte, -⟩ := decoderFollowsTheOpcodeMap c
  obtain ⟨hop, hw⟩ | ⟨hop, hw⟩ := h
  · obtain hop | hop := Nat.le_one_iff_eq_zero_or_eq_one.mp hop
    · exact hnop hop hw
    · exact hinit hop hw
  · exact hbyte hop hw

/-- 60_exceptions.md R81, R82: no other word is illegal. -/
theorem decode_legal_of_not_illegal {c : Cmd} (hop : ¬ HasUnassignedOpcode c)
    (hrsv : ¬ HasReservedBitSet c) : ∃ i, decode c = .legal i := by
  obtain ⟨hnop, -, hinit, -, hbyte, -, hword, htype, -⟩ := decoderFollowsTheOpcodeMap c
  unfold HasUnassignedOpcode at hop
  unfold HasReservedBitSet at hrsv
  obtain h | h | h | h | h : c.toNat / 2 ^ 32 = 0 ∨ c.toNat / 2 ^ 32 = 1 ∨ c.toNat / 2 ^ 32 = 2 ∨
      c.toNat / 2 ^ 32 = 3 ∨ c.toNat / 2 ^ 32 = 4 := by omega
  · exact ⟨_, hnop h (by omega)⟩
  · exact ⟨_, hinit h (by omega)⟩
  · exact ⟨_, hbyte h (by omega)⟩
  · exact ⟨_, hword h⟩
  · exact ⟨_, htype h⟩

/-- The step with a command word presented changes the capture by the capture unit's own function. -/
theorem step_command_capture {s : State} {c : Cmd} {rest : List PortEvent}
    (h : s.pending = .command c :: rest) :
    ∃ t, step s = .next t ∧ t.capture = captureEvent s.capture (.command c) := by
  obtain ⟨t, haccept, -⟩ := acceptEvent_next (.command c) (s.setPending rest)
  obtain ⟨-, -, hcapture⟩ := acceptEvent_units haccept
  exact ⟨t, (step_of_pending h).trans haccept, hcapture⟩

/-- Settles O15: each clause fixes what the word decodes to: an illegal command is recorded with its cause,
and a legal one leaves the capture. -/
theorem causeFollowsFromOpcodeAndReservedBits :
    Obligations.CauseFollowsFromOpcodeAndReservedBits := by
  intro s c rest hpending herr
  obtain ⟨t, hstep, hcapture⟩ := step_command_capture hpending
  have hrecords : ∀ cause, decode c = .illegal cause →
      t.err = 1#1 ∧ t.errCause = cause.code ∧ t.errOp.toNat = c.toNat / 2 ^ 32 := by
    intro cause hdecode
    rw [captureEvent_of_illegal herr hdecode] at hcapture
    obtain ⟨herr', hcause, hop⟩ := Capture.mk.inj hcapture
    exact ⟨herr', hcause, hop ▸ opField_toNat c⟩
  refine ⟨t, hstep, fun hop => hrecords _ (decode_of_hasUnassignedOpcode hop),
    fun hrsv => hrecords _ (decode_of_hasReservedBitSet hrsv), fun hop hrsv => ?_⟩
  obtain ⟨i, hdecode⟩ := decode_legal_of_not_illegal hop hrsv
  rw [captureEvent_of_legal hdecode] at hcapture
  obtain ⟨herr', hcause, hop'⟩ := State.capture_eq_iff.mp hcapture
  exact ⟨herr'.trans herr, hcause, hop'⟩

/-- 30_encoding.md R48: the acceptance of an illegal word is the capture. -/
theorem acceptCommand_of_illegal {c : Cmd} {cause : IllegalCause} (h : decode c = .illegal cause)
    (s : State) : acceptCommand c s = .next (raiseIllegalCommand cause (opField c) s) := by
  rw [acceptCommand, h]
  rfl

/-- Settles O11: the step is the capture, cause by cause, on the state without the word. -/
theorem illegalCommandIsCapturedIfFirst : Obligations.IllegalCommandIsCapturedIfFirst := by
  intro s c rest cause hpending hdecode
  have hstep : step s = .next (raiseIllegalCommand cause (opField c) (s.setPending rest)) :=
    (step_of_pending hpending).trans (acceptCommand_of_illegal hdecode _)
  rw [hstep]
  cases cause <;> rfl

/-! ## What the host sees of a byte that is no letter -/

/-- 60_exceptions.md R88: the host's test is true exactly if `TYPE_OK` = 0. -/
theorem invalidByteEvidence_iff (s : State) :
    invalidByteEvidence s = true ↔ ∃ i, ¬ IsLetter (byteOf s.type i).toNat := by
  have hflag : (readPort .tflags s).getLsbD 4 = typeOk s.type := tflags_getLsbD s.type 4
  rw [invalidByteEvidence, hflag, Bool.not_eq_true', ← Bool.not_eq_true, typeOk_iff, not_forall]
  simp only [alphaAt, alpha_iff]

/-- Settles O31: the load writes the word as it is, and the test reads its bytes. -/
theorem loadedNonLetterShowsAsInvalidByte : Obligations.LoadedNonLetterShowsAsInvalidByte := by
  intro s w rest hpending
  exact ⟨_, stepRunsTheDecodedCommand s _ rest _ hpending (decode_encode _), rfl,
    invalidByteEvidence_iff _⟩

end Sys2Proof.Machine
end

section
/-! Proofs for the reset family (70_reset_and_hazards.md): a reset from any state, a step with nothing
presented, and the launch states. -/

namespace Sys2Proof.Machine

/-! ## Reset -/

/-- Settles O1: the step takes the reset off and writes every element; the state before it gives nothing
but what stands behind the reset. -/
theorem resetStepWritesEveryElement : Obligations.ResetStepWritesEveryElement := by
  intro s rest hpending
  calc step s
      = .next (resetBlock (s.setPending rest)) := step_of_pending hpending
    _ = .next (State.mk 0xFFFFFFFF#32 0x00000000#32 0#1 0#2 0x00#8 rest) := rfl

/-- 10_state.md R19: a port is a function of the block's five elements, so what the host presents does not
show on it. -/
@[simp] theorem readPort_setPending (p : Port) (s : State) (evs : List PortEvent) :
    readPort p (s.setPending evs) = readPort p s := by
  cases p <;> rfl

/-- Settles O2: the step leaves `State.reset` before the rest of the events, which no port shows; each port's
own layout statement says what it reads at reset. -/
theorem portsReadTheirResetValuesAfterReset : Obligations.PortsReadTheirResetValuesAfterReset := by
  intro s rest hpending
  have hstep : step s = .next (State.reset.setPending rest) :=
    resetStepWritesEveryElement s rest hpending
  obtain ⟨-, hcrcState, hcrcOut⟩ := crcPortsReadRegisterAndItsFinalXor
  obtain ⟨-, htflags⟩ := tflagsLayoutFollowsTheFourBytes
  obtain ⟨-, hstatus⟩ := statusPortHoldsTheCaptureFields
  have htype : readPort .typeO State.reset = 0x00000000#32 := rfl
  refine ⟨_, hstep, ?_⟩
  simp only [readPort_setPending]
  exact ⟨hcrcState, hcrcOut, htype, htflags, hstatus⟩

/-! ## Nothing presented -/

/-- Settles O12: `nextEvent` finds none, and the wait answers the state itself. -/
theorem blockWaitsWhileNothingIsPresented : Obligations.BlockWaitsWhileNothingIsPresented :=
  fun _ hpending => step_of_pending_nil hpending

/-! ## Launch -/

/-- 93_implementation_defined.md I8: the launch states that are not admissible, as I8 lists them. -/
theorem launchAdmissible_eq_false_iff (err : BitVec 1) (errCause : BitVec 2) (errOp : Byte) :
    launchAdmissible err errCause errOp = false ↔
      errCause = 3#2 ∨ (err = 0#1 ∧ (errCause ≠ 0#2 ∨ errOp ≠ 0x00#8)) := by
  simp only [launchAdmissible, Bool.and_eq_false_iff, Bool.or_eq_false_iff, bne_eq_false_iff_eq,
    beq_eq_false_iff_ne]

/-- Settles O44: the launch asks `launchAdmissible`, which is false exactly on I8's list. -/
theorem launchRefusesExactlyTheStatesThatI8Lists :
    Obligations.LaunchRefusesExactlyTheStatesThatI8Lists := by
  intro crcState type err errCause errOp evs
  simp only [launch, ← launchAdmissible_eq_false_iff]
  cases launchAdmissible err errCause errOp
  case false => rfl
  case true => rfl

end Sys2Proof.Machine
end

section
/-! Proofs for the remaining family: words of the spec's tables (95_test_vectors.md) as instances of the
general decoding rules. -/

namespace Sys2Proof

/-- Settles O18: a legal word is the encoding of the command beside it, and an illegal one meets the condition
of its cause. -/
theorem wordsOfTheSpecDecode : Obligations.WordsOfTheSpecDecode := by
  have hlegal : ∀ (i : Instr) (c : Cmd), c = encode i → decode c = .legal i :=
    fun i c => (decodeAnswersCommandIffWordIsItsEncoding i c).mpr
  refine ⟨?nop, ?crcInit, ?crcByte, ?crcWord, ?typeLoad, ?initWithOperand, ?byteAboveD8, ?unassigned⟩
  case nop => exact hlegal .nop _ (by decide)
  case crcInit => exact hlegal .crcInit _ (by decide)
  case crcByte => exact hlegal (.crcByte 0xFF#8) _ (by decide)
  case crcWord => exact hlegal (.crcWord 0x49454E44#32) _ (by decide)
  case typeLoad => exact hlegal (.typeLoad 0x52755374#32) _ (by decide)
  case initWithOperand =>
    exact Machine.decode_of_hasReservedBitSet (Or.inl ⟨by decide, by decide⟩)
  case byteAboveD8 =>
    exact Machine.decode_of_hasReservedBitSet (Or.inr ⟨by decide, by decide⟩)
  case unassigned =>
    have hop : 5 ≤ (0xFFFFFFFFFF#40).toNat / 2 ^ 32 := by decide
    exact Machine.decode_of_hasUnassignedOpcode hop

end Sys2Proof
end
